-- ==== Sys2Proof/Word.lean ====
section
/-! DEFINITION. The word types of the memory subsystem (00_scope R7, R8: unsigned bit vectors, bit 0 least significant). -/

namespace Sys2Proof

/-- One byte of physical memory (20_memory R70). -/
abbrev Byte := BitVec 8

/-- One DWord: a register access (10_state R43) or a TR-TT L1 entry (30_encoding R124). -/
abbrev Word32 := BitVec 32

/-- A graphics address container (10_state R21), a physical address or a 64-bit translation entry. -/
abbrev Word64 := BitVec 64

end Sys2Proof
end

