-- ==== Sys2Proof/Config.lean ====
section
/-! DEFINITION. What a device configuration fixes (00_scope R6): the names of engines, contexts, spaces and registers, the
parameter record, and the free values (opaque constants) that the spec leaves open. -/

namespace Sys2Proof

/-- The engines that issue requests (00_scope R6 ENGINES, 92 D36); the set is open, so `other` names any further one. -/
inductive Engine where
  | compute | render | posh | mediaDecode | mediaEncode | mediaEnhance | blitter | guc | display
  | other (n : Nat)
  deriving DecidableEq, Repr

/-- A context a request names (40_request_pipeline R157): the distinguished `GLOBAL`, or a process's context. -/
inductive CtxId where
  | global
  | proc (id : Nat)
  deriving DecidableEq, Repr

/-- The kind of a context's address space (10_state R46). -/
inductive CtxKind where
  | ggtt | ppgtt48 | advPpgtt64 | ppgtt32
  deriving DecidableEq, Repr

/-- The two physical memories (10_state R25). -/
inductive Space where
  | system | device
  deriving DecidableEq, Repr

/-- A register DWord as an MMIO access names it (10_state R30, 40_request_pipeline R160): by name, or by offset. -/
inductive RegName where
  | trvattl3ptrDw0 | trvattl3ptrDw1 | trnulldet | trinvdet | trvadr | trtte
  | trbypass | pgtblCtl | pgtblCtl2 | nullcnt
  | offset (o : Word32)
  deriving DecidableEq, Repr

/-- The levels a not-present entry can be met at (60_exceptions R260). -/
inductive Level where
  | ggtt | pml4 | pdp | pd | pt
  deriving DecidableEq, Repr

/-- The cause a faulted request halts with (60_exceptions R260 to R262). The names are the spec's own (92 D15). -/
inductive Cause where
  | notPresent (level : Level) (a : Word64)
  | writeDenied (gva : Word64)
  deriving DecidableEq, Repr

/-- The host address width (00_scope R6): 39 for client, 46 for server. -/
inductive Haw where
  | client | server
  deriving DecidableEq, Repr

/-- The number of physical address bits. -/
def Haw.bits : Haw → Nat
  | .client => 39
  | .server => 46

/-- How a PDPE or PDE says that it maps a page (30_encoding R129, IS_LEAF): one entry bit, or a function of the platform.
`bit 7` is the spec's default. PRESUMED, unsafe (log 3). -/
inductive LeafRule where
  | bit (k : Nat)
  | platform (readsBit7 : Bool)
  deriving DecidableEq, Repr

/-- Which upper address bits are admitted (00_scope R6 GVA_UPPER_OK): all zero, or a predicate of the platform. -/
inductive UpperRule where
  | zero
  | platform
  deriving DecidableEq, Repr

/-- Which faults the platform can repair (00_scope R6 RECOVERABLE): all, none, or a predicate of the platform. -/
inductive RecoverRule where
  | always
  | never
  | platform
  deriving DecidableEq, Repr

/-- The set of engines (00_scope R6 ENGINES, 92 D36). It holds at least the nine named ones; the further ones are any, or listed. -/
inductive EngineRule where
  | any
  | listed (others : List Nat)
  deriving DecidableEq, Repr

/-- The configuration record of 00_scope R6, as plain data that no step changes. -/
structure Params where
  /-- HAW: 39 or 46. -/
  haw : Haw
  /-- GGTT_VA_BITS: the width of a global address; 32 by the source. -/
  ggttVaBits : Nat
  /-- PPGTT_VA_BITS: the width of a per-process address; 48 by the source. -/
  ppgttVaBits : Nat
  /-- TRVA_BITS: the width of the TR-VA space; 44 by the source. No rule reads it: 30_encoding R113 places the detection field at 47:44. -/
  trvaBits : Nat
  /-- GVA_CONTAINER_BITS: 64 by the source. No rule reads it: it is the width of every address operand. -/
  containerBits : Nat
  /-- ENGINES. -/
  engines : EngineRule
  /-- HAS_TRTT: the device supports Tiled Resources. -/
  hasTrtt : Bool
  /-- HAS_LOCAL_MEMORY: the Device space exists and the Local Memory bit is read. -/
  hasLocalMemory : Bool
  /-- INTEGRATED: no rule reads it. -/
  integrated : Bool
  /-- HAS_L4: no rule reads it. -/
  hasL4 : Bool
  /-- HAS_DISPLAY: no rule reads it. -/
  hasDisplay : Bool
  /-- NULLCNT_BITS: no rule reads it; a read of the counter is a free value (92 D26). -/
  nullcntBits : Nat
  /-- DUAL_CONTEXT (41_trtt R189). -/
  dualContext : Bool
  /-- GGTT_BASE: the base that PGTBL_CTL programs, whose layout the spec does not give (10_state R39). -/
  ggttBase : Word64
  /-- IS_LEAF. -/
  leaf : LeafRule
  /-- GVA_UPPER_OK. -/
  upper : UpperRule
  /-- RECOVERABLE. -/
  recover : RecoverRule
  /-- Whether a second-level translation function is supplied (43_ppgtt R239). -/
  slSupplied : Bool
  /-- TLB_INVALIDATION_EVENTS: RESET always is one; CTX_LOAD is one when this holds (92 D8). -/
  ctxLoadInvalidates : Bool
  /-- TLB_INVALIDATION_EVENTS: the events a platform adds (92 D8 OPEN), by numbers of its own; the schedule says when one happens. -/
  addedEvents : List Nat
  /-- MAX_REQUEST_BYTES: the largest request, within the limit of one 4 KB page (20_memory R76). -/
  maxRequestBytes : Nat
  /-- The alignment of a request: its address is a multiple of two to this number (00_scope R6; 0 by default). -/
  requestAlign : Nat
  /-- OFFSET: the offsets known beside 0x4DFC (92 D25); none is in the source. -/
  offsets : List (Word32 × RegName)
  deriving DecidableEq, Repr

/-- The defaults of 00_scope R6; GGTT_BASE as in 95_test_vectors. PRESUMED and DESIGN CHOICE, unsafe (log 2, log 3, log 15). -/
def Params.default : Params :=
  { haw := .client, ggttVaBits := 32, ppgttVaBits := 48, trvaBits := 44, containerBits := 64, engines := .any,
    hasTrtt := true, hasLocalMemory := false, integrated := true, hasL4 := false, hasDisplay := true, nullcntBits := 32,
    dualContext := false, ggttBase := 0x00800000#64, leaf := .bit 7, upper := .zero, recover := .always,
    slSupplied := true, ctxLoadInvalidates := true, addedEvents := [], maxRequestBytes := 4096, requestAlign := 0, offsets := [] }

/-! The free values. None has a body: nothing proves or evaluates one. The first argument of most is the state's counter
`draws`, so that each use is a fresh value (00_scope R9 `draw`; log 13). -/

/-- A byte of memory that nothing has written since the RESET numbered by the first argument (10_state R67, 70 R298; log 4). -/
opaque Config.powerOnByte : Nat → Space → Nat → Byte

/-- Which of several admitted things happens: use a cached translation or walk (20_memory R99), which old value a read outside
the quiescence premise returns (20_memory R95 c), which value of a register is used (70 R306). Log 8, log 9, log 11. -/
opaque Config.choice : Nat → Nat

/-- An entry written piecewise while a walk may read it (20_memory R79; log 10). -/
opaque Config.tornEntry : Nat → Word64

/-- The entry value the TR walker goes on with after a non-recoverable fault (60_exceptions R277; log 23). -/
opaque Config.incorrectEntry : Nat → Word64

/-- The data a request converted to an invalid cycle returns (60_exceptions R277; log 23). -/
opaque Config.invalidCycleByte : Nat → Nat → Byte

/-- The bytes that spurious cycles store: memory is unconstrained after a non-recoverable fault (00_scope R9, 60_exceptions R277 a;
log 23). -/
opaque Config.spuriousWrites : Nat → List (Space × Word64 × Byte)

/-- The value of the Null-tile counter (10_state R41, 41_trtt R185; log 14). -/
opaque Config.nullTileCount : Nat → Word32

/-- Bits 31:1 of a read of 0x4DFC (10_state R38; log 25). -/
opaque Config.bypassUpper : Nat → BitVec 31

/-- The second-level translation SL of one 4 KB frame of a context's guest physical space (43_ppgtt R239; log 22). -/
opaque Config.slFrame : CtxId → BitVec 52 → BitVec 52

/-- IS_LEAF of a platform that supplies its own (30_encoding R129; log 3). -/
opaque Config.isLeafPlatform : Level → Word64 → Bool

/-- GVA_UPPER_OK of a platform that supplies its own (10_state R21; log 30). -/
opaque Config.upperOkPlatform : CtxKind → Word64 → Bool

/-- RECOVERABLE of a platform that supplies its own (60_exceptions R277 e; log 23). -/
opaque Config.recoverablePlatform : Cause → Bool

end Sys2Proof
end

