-- ==== Sys2Proof/Syntax.lean ====
section
/-! DEFINITION. The rows of spec/opcode_table.json, one constructor each: the eighteen entry formats the walker executes and
the eleven operations of 40_request_pipeline R150. Bits an entry format calls Ignored are not carried (30_encoding R135). -/

namespace Sys2Proof

/-- The flag bits of a PPGTT leaf entry that every page size has (30_encoding R117 to R121): Null 9, PAT 7, PCD 4, PWT 3, R/W 1. -/
structure LeafBits where
  null : Bool
  pat : Bool
  pcd : Bool
  pwt : Bool
  rw : Bool
  deriving DecidableEq, Repr

/-- One context's copy of the five TR-TT registers (10_state R31 to R36, R44). -/
structure TrRegs where
  /-- TRVATTL3PTR, DWord 0 in bits 31:0, DWord 1 in bits 63:32. -/
  l3ptr : Word64
  /-- TRNULLDET. -/
  nulldet : Word32
  /-- TRINVDET. -/
  invdet : Word32
  /-- TRVADR: TRVAMV in 7:4, TRVADV in 3:0. -/
  trvadr : Word32
  /-- TRTTE: memory location in bit 1, enable in bit 0. -/
  trtte : Word32
  deriving DecidableEq, Repr

/-- The per-context values CTX_LOAD brings (10_state R46, 40_request_pipeline R165). `regs` holds the TR-TT registers where the
context image restores them (70 R300); `none` leaves the context's copy as it is. The image's layout is not in the source (log 17). -/
structure CtxImage where
  kind : CtxKind
  pml4 : Word64
  neste : Bool
  wpe : Bool
  regs : Option TrRegs
  deriving DecidableEq, Repr

/-- The instructions: entry formats and operations. -/
inductive Instr where
  /-- GGTT_PTE (30_encoding R114): ADDR [45:12] and the ignored Function Number [4:2]. -/
  | ggttPte (addr : BitVec 34) (fn : BitVec 3)
  /-- PML4E (R115): ADDR [45:12], R/W. -/
  | pml4e (addr : BitVec 34) (rw : Bool)
  /-- PDPE_PD (R116): ADDR [45:12], R/W. -/
  | pdpePd (addr : BitVec 34) (rw : Bool)
  /-- PDPE_1GB (R117): ADDR [45:30], Local Memory, flags. -/
  | pdpe1gb (addr : BitVec 16) (lm : Bool) (f : LeafBits)
  /-- PDE_PT (R118): ADDR [45:12], 64 KB indicator, R/W. -/
  | pdePt (addr : BitVec 34) (ind64 : Bool) (rw : Bool)
  /-- PDE_2MB (R119): ADDR [45:21], Local Memory, flags. -/
  | pde2mb (addr : BitVec 25) (lm : Bool) (f : LeafBits)
  /-- PTE_64KB (R120): ADDR [45:16], Local Memory, flags. -/
  | pte64kb (addr : BitVec 30) (lm : Bool) (f : LeafBits)
  /-- PTE_4KB (R121): ADDR [45:12], flags. -/
  | pte4kb (addr : BitVec 34) (f : LeafBits)
  /-- NOT_PRESENT (60_exceptions R261): a GGTT or PPGTT entry with bit 0 clear. -/
  | notPresent
  /-- TRTT_L3_POINTER (R122): ADDR [47:12]. -/
  | trttL3Pointer (addr : BitVec 36)
  /-- TRTT_L3_NULL (R122). -/
  | trttL3Null
  /-- TRTT_L3_INVALID (R122). -/
  | trttL3Invalid
  /-- TRTT_L3_NULL_AND_INVALID (41_trtt R178). -/
  | trttL3NullAndInvalid
  /-- TRTT_L2_POINTER (R123): ADDR [47:12]. -/
  | trttL2Pointer (addr : BitVec 36)
  /-- TRTT_L2_NULL (R123). -/
  | trttL2Null
  /-- TRTT_L2_INVALID (R123). -/
  | trttL2Invalid
  /-- TRTT_L2_NULL_AND_INVALID (41_trtt R178). -/
  | trttL2NullAndInvalid
  /-- TRTT_L1 (R124): the whole 32-bit word. -/
  | trttL1 (addr : Word32)
  /-- READ agent, ctx, gva, n (40_request_pipeline R152). -/
  | read (agent : Engine) (ctx : CtxId) (gva : Word64) (n : Nat)
  /-- WRITE agent, ctx, gva, n, value (R153). -/
  | write (agent : Engine) (ctx : CtxId) (gva : Word64) (n : Nat) (value : Nat)
  /-- MMIO_WRITE reg@ctx, value (R160); a global register's access ignores `ctx`. -/
  | mmioWrite (reg : RegName) (ctx : CtxId) (value : Word32)
  /-- MMIO_READ reg@ctx (R161). -/
  | mmioRead (reg : RegName) (ctx : CtxId)
  /-- GGTT_UPDATE index, entry (R162). -/
  | ggttUpdate (index : BitVec 20) (entry : Word64)
  /-- MI_UPDATE_GTT updates (R163). -/
  | miUpdateGtt (updates : List (BitVec 20 × Word64))
  /-- TABLE_WRITE space:pa, n, value (R164). -/
  | tableWrite (space : Space) (pa : Word64) (n : Nat) (value : Nat)
  /-- CTX_LOAD ctx with its per-context values (R165). -/
  | ctxLoad (ctx : CtxId) (image : CtxImage)
  /-- FAULT_RESPONSE request, ok or fail (60_exceptions R274, R277). -/
  | faultResponse (request : Nat) (ok : Bool)
  /-- ACK_INVALID_TILE (60_exceptions R270). -/
  | ackInvalidTile
  /-- RESET (70_reset_and_hazards R290). -/
  | reset
  deriving DecidableEq, Repr

/-- Where in a walk an entry is read; it alone selects the entry's format (30_encoding R128). -/
inductive Pos where
  | ggtt | pml4 | pdp | pd | pt4k | pt64k | trL3 | trL2 | trL1
  deriving DecidableEq, Repr

end Sys2Proof
end

