-- ==== Sys2Proof/Decode.lean ====
section
/-! DEFINITION. The decoder of translation entries, total on any bytes and rejecting by name; after it the encoder, written from
the same tables (30_encoding R114 to R124, R128, R129); and `decodeTableWord`, the host's view of the decoder. -/

namespace Sys2Proof

/-! ## Bytes and bits -/

/-- The n bytes of a value, lowest address first (20_memory R71). PRESUMED little-endian, unsafe (log 1). -/
def leBytes : Nat → Nat → List Byte
  | 0, _ => []
  | n + 1, v => BitVec.ofNat 8 v :: leBytes n (v / 256)

/-- The value of bytes stored lowest address first (20_memory R71). -/
def leNat : List Byte → Nat
  | [] => 0
  | b :: r => b.toNat + 256 * leNat r

/-- A 64-bit word with bit `i` set exactly when `b` holds. -/
def bitAt (b : Bool) (i : Nat) : Word64 := (BitVec.ofBool b).setWidth 64 <<< i

/-- The bits below HAW of a word: an ADDR field reaches no further (30_encoding R135). -/
def belowHaw (p : Params) (w : Word64) : Word64 := w &&& (BitVec.ofNat 64 (2 ^ p.haw.bits - 1))

/-! ## The large-page discriminator -/

/-- IS_LEAF(level, entry) (30_encoding R129; log 3). -/
def isLeaf (p : Params) (l : Level) (w : Word64) : Bool :=
  match p.leaf with
  | .bit k => w.getLsbD k
  | .platform _ => Config.isLeafPlatform l w

/-- Whether IS_LEAF reads bit 7, which is then not PAT (43_ppgtt R218 LargePAT). -/
def leafReadsBit7 (p : Params) : Bool :=
  match p.leaf with
  | .bit k => k == 7
  | .platform b => b

/-! ## The decoder -/

/-- The flags of a leaf entry (30_encoding R117). -/
def leafBits (w : Word64) : LeafBits :=
  { null := w.getLsbD 9, pat := w.getLsbD 7, pcd := w.getLsbD 4, pwt := w.getLsbD 3, rw := w.getLsbD 1 }

/-- The frame field ADDR [HAW-1:12] as bits 45:12. -/
def frameField (p : Params) (w : Word64) : BitVec 34 := (belowHaw p w).extractLsb' 12 34

/-- A level 3 entry with its Present bit set (30_encoding R116, R117). -/
def decodePdpe (p : Params) (w : Word64) : Instr :=
  if isLeaf p .pdp w then .pdpe1gb ((belowHaw p w).extractLsb' 30 16) (w.getLsbD 11) (leafBits w)
  else .pdpePd (frameField p w) (w.getLsbD 1)

/-- A level 2 entry with its Present bit set; IS_LEAF is tested before bit 11 (43_ppgtt R218 b). -/
def decodePde (p : Params) (w : Word64) : Instr :=
  if isLeaf p .pd w then .pde2mb ((belowHaw p w).extractLsb' 21 25) (w.getLsbD 11) (leafBits w)
  else .pdePt (frameField p w) (w.getLsbD 11) (w.getLsbD 1)

/-- A TR-TT L3 entry, by its flag bits Null 1 and Invalid 0 (41_trtt R178). -/
def decodeTrL3 (w : Word64) : Instr :=
  match w.getLsbD 1, w.getLsbD 0 with
  | false, false => .trttL3Pointer (w.extractLsb' 12 36)
  | true, false => .trttL3Null
  | false, true => .trttL3Invalid
  | true, true => .trttL3NullAndInvalid

/-- A TR-TT L2 entry (41_trtt R178). -/
def decodeTrL2 (w : Word64) : Instr :=
  match w.getLsbD 1, w.getLsbD 0 with
  | false, false => .trttL2Pointer (w.extractLsb' 12 36)
  | true, false => .trttL2Null
  | false, true => .trttL2Invalid
  | true, true => .trttL2NullAndInvalid

/-- The entry word `w` read at a walk position (30_encoding R128); Present is looked at before any other bit (43_ppgtt R230).
At `trL1` only the low 32 bits exist. -/
def decodeEntry (p : Params) (pos : Pos) (w : Word64) : Instr :=
  match pos with
  | .ggtt => if w.getLsbD 0 then .ggttPte (frameField p w) (w.extractLsb' 2 3) else .notPresent
  | .pml4 => if w.getLsbD 0 then .pml4e (frameField p w) (w.getLsbD 1) else .notPresent
  | .pdp => if w.getLsbD 0 then decodePdpe p w else .notPresent
  | .pd => if w.getLsbD 0 then decodePde p w else .notPresent
  | .pt4k => if w.getLsbD 0 then .pte4kb (frameField p w) (leafBits w) else .notPresent
  | .pt64k =>
    if w.getLsbD 0 then .pte64kb ((belowHaw p w).extractLsb' 16 30) (w.getLsbD 11) (leafBits w) else .notPresent
  | .trL3 => decodeTrL3 w
  | .trL2 => decodeTrL2 w
  | .trL1 => .trttL1 (w.setWidth 32)

/-- The size in bytes of the entry read at a position (20_memory R78, 30_encoding R128). -/
def entryBytes : Pos → Nat
  | .trL1 => 4
  | .ggtt | .pml4 | .pdp | .pd | .pt4k | .pt64k | .trL3 | .trL2 => 8

/-- Why bytes are no entry. -/
inductive DecodeError where
  /-- The bytes are fewer than the position's entry has. -/
  | tooFewBytes
  deriving DecidableEq, Repr

/-- Decode the entry at the front of a list of bytes, lowest address first; the rest is returned. -/
def decode (p : Params) (pos : Pos) (bytes : List Byte) : Except DecodeError (Instr × List Byte) :=
  if bytes.length < entryBytes pos then .error .tooFewBytes
  else .ok (decodeEntry p pos (BitVec.ofNat 64 (leNat (bytes.take (entryBytes pos)))), bytes.drop (entryBytes pos))

/-! ## The encoder -/

/-- The flag bits of a leaf entry, in place (30_encoding R117). -/
def encodeLeafBits (f : LeafBits) : Word64 :=
  bitAt f.null 9 ||| bitAt f.pat 7 ||| bitAt f.pcd 4 ||| bitAt f.pwt 3 ||| bitAt f.rw 1

/-- The word of an entry format, ignored bits zero (30_encoding R114 to R124); an operation has none (R110). -/
def encodeWord : Instr → Option Word64
  | .ggttPte a fn => some (a.setWidth 64 <<< 12 ||| fn.setWidth 64 <<< 2 ||| bitAt true 0)
  | .pml4e a rw => some (a.setWidth 64 <<< 12 ||| bitAt rw 1 ||| bitAt true 0)
  | .pdpePd a rw => some (a.setWidth 64 <<< 12 ||| bitAt rw 1 ||| bitAt true 0)
  | .pdpe1gb a lm f => some (a.setWidth 64 <<< 30 ||| bitAt lm 11 ||| encodeLeafBits f ||| bitAt true 0)
  | .pdePt a s rw => some (a.setWidth 64 <<< 12 ||| bitAt s 11 ||| bitAt rw 1 ||| bitAt true 0)
  | .pde2mb a lm f => some (a.setWidth 64 <<< 21 ||| bitAt lm 11 ||| encodeLeafBits f ||| bitAt true 0)
  | .pte64kb a lm f => some (a.setWidth 64 <<< 16 ||| bitAt lm 11 ||| encodeLeafBits f ||| bitAt true 0)
  | .pte4kb a f => some (a.setWidth 64 <<< 12 ||| encodeLeafBits f ||| bitAt true 0)
  | .notPresent => some 0
  | .trttL3Pointer a => some (a.setWidth 64 <<< 12)
  | .trttL3Null => some (bitAt true 1)
  | .trttL3Invalid => some (bitAt true 0)
  | .trttL3NullAndInvalid => some (bitAt true 1 ||| bitAt true 0)
  | .trttL2Pointer a => some (a.setWidth 64 <<< 12)
  | .trttL2Null => some (bitAt true 1)
  | .trttL2Invalid => some (bitAt true 0)
  | .trttL2NullAndInvalid => some (bitAt true 1 ||| bitAt true 0)
  | .trttL1 a => some (a.setWidth 64)
  | .read .. | .write .. | .mmioWrite .. | .mmioRead .. | .ggttUpdate .. | .miUpdateGtt .. | .tableWrite ..
  | .ctxLoad .. | .faultResponse .. | .ackInvalidTile | .reset => none

/-- The walk positions at which a row's words are read as that row (30_encoding R128, R147). -/
def positions : Instr → List Pos
  | .ggttPte .. => [.ggtt]
  | .pml4e .. => [.pml4]
  | .pdpePd .. | .pdpe1gb .. => [.pdp]
  | .pdePt .. | .pde2mb .. => [.pd]
  | .pte64kb .. => [.pt64k]
  | .pte4kb .. => [.pt4k]
  | .notPresent => [.ggtt, .pml4, .pdp, .pd, .pt4k, .pt64k]
  | .trttL3Pointer .. | .trttL3Null | .trttL3Invalid | .trttL3NullAndInvalid => [.trL3]
  | .trttL2Pointer .. | .trttL2Null | .trttL2Invalid | .trttL2NullAndInvalid => [.trL2]
  | .trttL1 .. => [.trL1]
  | .read .. | .write .. | .mmioWrite .. | .mmioRead .. | .ggttUpdate .. | .miUpdateGtt .. | .tableWrite ..
  | .ctxLoad .. | .faultResponse .. | .ackInvalidTile | .reset => []

/-- The bytes of a row as memory stores them, lowest address first; none for an operation. -/
def encode (i : Instr) : List Byte :=
  match encodeWord i, positions i with
  | some w, pos :: _ => leBytes (entryBytes pos) w.toNat
  | _, _ => []

/-! ## The host's view -/

/-- The position at which a bare 64-bit word of the table is read. The formats overlap and carry no tag (30_encoding R128), and
the host gives no position: a word with bit 1 set is read at TR-TT L3, any other at the GGTT. DESIGN CHOICE (log 6). -/
def tablePos (w : Word64) : Pos := if w.getLsbD 1 then .trL3 else .ggtt

/-- The walk position and the entry bytes of a table word: 64-bit words by `tablePos`, 32-bit words at TR-TT L1. -/
def tableEntry (nbits w : Nat) : Option (Pos × List Byte) :=
  if nbits = 64 then some (tablePos (BitVec.ofNat 64 w), leBytes 8 w)
  else if nbits = 32 then some (.trL1, leBytes 4 w)
  else none

/-- The instruction the decoder reads from a word of the opcode table, under the default parameters. -/
def decodeTableWord (nbits w : Nat) : Option Instr :=
  match tableEntry nbits w with
  | none => none
  | some (pos, bytes) =>
    match decode Params.default pos bytes with
    | .ok (i, _) => some i
    | .error _ => none

end Sys2Proof
end

