-- ==== Sys2Proof/Machine/State.lean ====
section
/-! DEFINITION. The state of the memory subsystem (10_state R20) as plain data, the reasons a step can stop, and the state
right after reset (10_state R66, R67; 70_reset_and_hazards R290). -/

namespace Sys2Proof.Machine

/-! ## Memory -/

/-- The two physical memories (10_state R25): cells of written bytes, addresses strictly rising. An address that is not listed
has not been written since RESET and holds a byte nothing constrains (log 4). -/
structure Memory where
  system : List Host.Cell
  device : List Host.Cell
  deriving DecidableEq, Repr

/-! ## Caches of translations -/

/-- Bytes of physical memory that a cached translation was read from. -/
structure Dep where
  space : Space
  pa : Word64
  n : Nat
  deriving DecidableEq, Repr

/-- The page sizes (43_ppgtt R226; the GGTT has 4 KB pages only). -/
inductive PageSize where
  | k4 | k64 | m2 | g1
  deriving DecidableEq, Repr

/-- What a leaf entry says of its page: where it is (before the second level), its memory type PAT:PCD:PWT and whether the
path permits writes; or that it is a Null page (00_scope R10). -/
inductive Mapping where
  | page (space : Space) (base : Word64) (mt : BitVec 3) (w : Bool)
  | null (w : Bool)
  deriving DecidableEq, Repr

/-- A completed GGTT or PPGTT translation that the TLB may hold (20_memory R99, 43_ppgtt R241). -/
structure TlbEntry where
  /-- Translated by the GGTT; else by the PPGTT. -/
  global : Bool
  size : PageSize
  vbase : Word64
  out : Mapping
  /-- The second level was on when the translation was completed (43_ppgtt R239): what the element says of an address does not change
  when the context's NESTE does. -/
  nested : Bool
  deps : List Dep
  deriving DecidableEq, Repr

/-- What TR-TT says of a tile (41_trtt R178, R179): mapped to virtual address bits 47:16, Null, or Invalid. -/
inductive TileOut where
  | mapped (a : Word32)
  | null
  | invalid
  deriving DecidableEq, Repr

/-- A completed TR-VA translation that the TR TLB may hold (10_state R51); `tile` is address bits 47:16. -/
structure TrTlbEntry where
  tile : Word32
  out : TileOut
  deps : List Dep
  deriving DecidableEq, Repr

/-- The PML4 cache of a context (43_ppgtt R240): the 512 entries, and the physical page they were read from. -/
structure Pml4Cache where
  page : Word64
  entries : List Word64
  deriving DecidableEq, Repr

/-- The hidden state of one context (10_state R50 to R52). `tlb` and `trTlb` list every translation completed since the last
invalidation event: the sets a real TLB may hold (log 8). `trOld` lists register copies whose values a translation may still use
(70_reset_and_hazards R306; log 11), `since` is the time of the last event that was the context's
own; `State.flushedAt` counts beside it (log 9). -/
structure Caches where
  tlb : List TlbEntry
  trTlb : List TrTlbEntry
  pml4c : Option Pml4Cache
  trOld : List TrRegs
  since : Nat
  deriving DecidableEq, Repr

/-- Nothing cached. -/
def Caches.empty : Caches :=
  { tlb := [], trTlb := [], pml4c := none, trOld := [], since := 0 }

/-! ## Contexts -/

/-- The TR-TT registers at their defaults (10_state R66). -/
def TrRegs.reset : TrRegs := { l3ptr := 0, nulldet := 0, invdet := 0, trvadr := 0, trtte := 0 }

/-- A context: the values of its descriptor (10_state R46), its copy of the TR-TT registers (R44) and its hidden state. -/
structure Ctx where
  kind : CtxKind
  pml4 : Word64
  neste : Bool
  wpe : Bool
  /-- CTX_LOAD has been performed for it since reset (40_request_pipeline R165). -/
  loaded : Bool
  tr : TrRegs
  caches : Caches
  deriving DecidableEq, Repr

/-- A context that nothing has loaded. The spec gives no values: DESIGN CHOICE, unsafe (log 16). -/
def Ctx.initial : Ctx :=
  { kind := .ppgtt48, pml4 := 0, neste := false, wpe := false, loaded := false, tr := TrRegs.reset, caches := Caches.empty }

/-! ## Requests and walks -/

/-- Who writes memory (60_exceptions R285). -/
inductive Agent where
  | engine (e : Engine)
  | host
  | commandStreamer
  deriving DecidableEq, Repr

/-- A memory request (40_request_pipeline R152, R153); `value` is present exactly for a WRITE. -/
structure Request where
  id : Nat
  agent : Engine
  ctx : CtxId
  gva : Word64
  n : Nat
  value : Option Nat
  deriving DecidableEq, Repr

/-- The levels of the TR-TT tables (41_trtt R196). -/
inductive TrLevel where
  | l3 | l2 | l1
  deriving DecidableEq, Repr

/-- What the walk in progress serves: the request's own address, or the read of a TR-TT table entry (41_trtt R176). -/
inductive Stage where
  | data
  | table (l : TrLevel)
  deriving DecidableEq, Repr

/-- The walk in progress. `pos` and `space`, `pa` say which entry is read next and where; `va` is the address being walked, `w`
the write permission so far (43_ppgtt R218). -/
structure Walk where
  req : Request
  /-- The register copy this translation uses. -/
  regs : TrRegs
  stage : Stage
  pos : Pos
  va : Word64
  space : Space
  pa : Word64
  w : Bool
  /-- The entries the present GGTT or PPGTT walk has read. -/
  deps : List Dep
  /-- The entries the TR-TT walk has read. -/
  trDeps : List Dep
  /-- The incorrect value the walker gets in place of the entry (60_exceptions R277). -/
  forced : Option Word64
  /-- The request goes on after a non-recoverable fault: its accesses are spurious cycles (60_exceptions R277). -/
  spurious : Bool
  deriving DecidableEq, Repr

/-- The record of a halted request (60_exceptions R260, R272): the request, the cause and what the walk served. -/
structure Halted where
  req : Request
  cause : Cause
  stage : Stage
  deriving DecidableEq, Repr

/-- One write of memory: when, who, where, and both memories before it (20_memory R95 c; log 9). -/
structure PastWrite where
  time : Nat
  writer : Agent
  space : Space
  pa : Word64
  n : Nat
  before : Memory
  deriving DecidableEq, Repr

/-- What comes to the machine from outside: an operation, or an event that a platform may count among its TLB_INVALIDATION_EVENTS, for
one context or for all (00_scope R6, 92 D8; log 36). -/
inductive Input where
  | op (i : Instr)
  | event (name : Nat) (ctx : Option CtxId)
  deriving DecidableEq, Repr

/-- What the last operation gave to its originator (40_request_pipeline R152, R153, R161; log 19). -/
inductive Result where
  /-- No operation yet. -/
  | idle
  /-- A READ's completion (data, null). -/
  | read (q : Nat) (data : Nat) (null : Bool)
  /-- A WRITE's completion. -/
  | write (q : Nat)
  /-- The request halted on a fault and has no completion (60_exceptions R272). -/
  | halted (q : Nat) (cause : Cause)
  /-- The request ended with NonRecoverable; a READ returns data nothing constrains (60_exceptions R277). -/
  | nonRecoverable (q : Nat) (data : Option Nat)
  /-- The value of an MMIO_READ. -/
  | register (v : Word32)
  /-- Any other operation is done. -/
  | done
  deriving DecidableEq, Repr

/-! ## Why a step stops -/

/-- The machine stops. -/
inductive Fault where
  /-- A TABLE_WRITE, or a PML4 pointer, names a physical address at or above 2^HAW, which does not exist (20_memory R84). Safe. -/
  | noSuchPhysicalAddress
  /-- A TABLE_WRITE names the Device space of a configuration without local memory (10_state R25). Safe. -/
  | noDeviceMemory
  deriving DecidableEq, Repr

/-- The spec gives the situation no meaning (00_scope R9 `refuse`, 93_implementation_defined section 1). Every reason is safe:
no claim can rest on what follows a refusal. -/
inductive Refusal where
  /-- An instruction without a meaning in this model; raised by no meaning. -/
  | notModelled (mnemonic : String)
  /-- GVA_UPPER_BITS: admission of a request (40_request_pipeline R156 a). -/
  | gvaUpperBits
  /-- REQUEST_CROSSES_4KB: admission; covers a size of 0 (20_memory R76). -/
  | requestCrosses4kb
  /-- The model's own: a request larger, or less aligned, than the platform admits (00_scope R6 MAX_REQUEST_BYTES; log 31). The default
  configuration never raises it. -/
  | requestShape
  /-- AFTER_NONRECOVERABLE_FAULT: admission while needs_reset is set (60_exceptions R277 b). -/
  | afterNonrecoverableFault
  /-- MISALIGNED_TABLE_BASE: GGTT_BASE or a PML4 pointer with bits 11:0 not zero (20_memory R73). -/
  | misalignedTableBase
  /-- The configuration's GGTT would reach past 2^HAW (30_encoding R131). -/
  | ggttBeyondMemory
  /-- GGTT_DIRECT_WRITE: WRITE or TABLE_WRITE into the GGTT's 8 MB (40_request_pipeline R153 d, R164 b). -/
  | ggttDirectWrite
  /-- UNMODELLED_REGISTER: MMIO access to a register without layout, or to none (40_request_pipeline R160, R161). -/
  | unmodelledRegister
  /-- TRTT_CONTEXT: TR-TT active in a context of kind GGTT (41_trtt R187). -/
  | trttContext
  /-- TRTT_ENGINE: a TR-VA request of an engine that is neither Render nor POSH (41_trtt R188). -/
  | trttEngine
  /-- TRTT_GPA_MODE: TRTTE bit 1 clear (10_state R37). -/
  | trttGpaMode
  /-- TRVAMV_UNSUPPORTED: a detection mask that is neither 0000 nor 1111 (41_trtt R171). -/
  | trvamvUnsupported
  /-- TRTT_NULL_EQ_INVALID: equal detection values (41_trtt R179 c). -/
  | trttNullEqInvalid
  /-- TRTT_NULL_AND_INVALID: both flags of an L3 or L2 entry set (41_trtt R178). -/
  | trttNullAndInvalid
  /-- TRTT_TABLE_IN_TRVA: a TR-TT table inside the TR-VA range (41_trtt R182). -/
  | trttTableInTrva
  /-- TRTT_TABLE_IN_NULL_PAGE: a TR-TT table in a Null page (41_trtt R176). -/
  | trttTableInNullPage
  /-- TRTT_DUAL_CONTEXT_BIT47: address bit 47 of a TR-TT entry set under Dual Context (41_trtt R189). -/
  | trttDualContextBit47
  /-- NESTED_TRANSLATION_UNMODELLED: NESTE is set and no second level is supplied (43_ppgtt R239). -/
  | nestedTranslationUnmodelled
  /-- UNDEFINED_PPGTT_MODE: a context of a kind that is only named (43_ppgtt R243). -/
  | undefinedPpgttMode
  /-- NO_SUCH_FAULT: a response to a request that is not halted (60_exceptions R274). -/
  | noSuchFault
  /-- The model's own: an entry format is executed where no walk reads that format (log 7). -/
  | entryOutOfPlace
  deriving DecidableEq, Repr

/-! ## The state -/

/-- The machine. -/
structure State where
  /-- The configuration; no step changes it. -/
  cfg : Params
  /-- Physical memory, with the GGTT, the PPGTT tables and the TR-TT tables in it. -/
  mem : Memory
  /-- The model's own: how many RESETs there were; it numbers the unknown contents of memory (log 4). -/
  epoch : Nat
  /-- TRBYPASS bit 0: TR-TT bypass is disabled (10_state R38). -/
  trbypass : Bool
  /-- NULLCNT (10_state R41; log 14). -/
  nullcnt : Word32
  /-- PGTBL_CTL2, named only (10_state R40; log 15). PGTBL_CTL is `cfg.ggttBase`. -/
  pgtblCtl2 : Word32
  /-- The hidden state of the context GLOBAL. -/
  globalCaches : Caches
  /-- The other contexts, by number strictly rising; one that is not listed is `Ctx.initial`. -/
  ctxs : List (Nat × Ctx)
  /-- irq.InvalidTile (10_state R54). -/
  irqInvalidTile : Bool
  /-- Requests halted on a fault, by number strictly rising (10_state R55). -/
  halted : List (Nat × Halted)
  /-- needs_reset (10_state R56). -/
  needsReset : Bool
  /-- The walk in progress. -/
  walk : Option Walk
  /-- The model's own: the operations and events still to come (log 5). -/
  schedule : List Input
  /-- The model's own: what the last operation gave (log 19). -/
  result : Result
  /-- The model's own: the number of the next request (log 18). -/
  nextReq : Nat
  /-- The model's own: the writes since RESET, newest first (log 9). -/
  hist : List PastWrite
  /-- The model's own: the number of writes of memory, and of breaches by a register write, since RESET (log 9). -/
  clock : Nat
  /-- The model's own: when the quiescence premise of 20_memory R95 last failed; 0 for not since RESET (log 9). -/
  breach : Nat
  /-- The model's own: when an event last discarded what is cached of every context, listed or not; 0 for not since RESET (log 9). -/
  flushedAt : Nat
  /-- The model's own: how many free values have been drawn (log 13). -/
  draws : Nat
  deriving DecidableEq, Repr

/-- Right after reset: the defaults of 10_state R66, every cache empty, nothing pending (R67), and the values the logs name for
what the spec leaves open (log 2, log 4, log 14, log 15, log 16). -/
def State.reset : State :=
  { cfg := Params.default, mem := { system := [], device := [] }, epoch := 0, trbypass := false, nullcnt := 0, pgtblCtl2 := 0,
    globalCaches := Caches.empty, ctxs := [], irqInvalidTile := false, halted := [], needsReset := false, walk := none,
    schedule := [], result := .idle, nextReq := 0, hist := [],
    clock := 0, breach := 0, flushedAt := 0, draws := 0 }

/-- What a step or a meaning answers. -/
abbrev Out := Host.Outcome State Fault Refusal

end Sys2Proof.Machine
end

