-- ==== Sys2Proof/Machine/Memory.lean ====
section
/-! DEFINITION. Lists keyed by rising numbers (memory cells, contexts, halted requests) and the bytes of physical memory
(20_memory R70, R71). -/

namespace Sys2Proof.Machine

/-! ## Keyed lists in one canonical form: keys strictly rising -/

/-- The value at a key. -/
def assocGet {α : Type} : List (Nat × α) → Nat → Option α
  | [], _ => none
  | (k, v) :: r, a => if k = a then some v else assocGet r a

/-- The list with the value at a key set. -/
def assocPut {α : Type} : List (Nat × α) → Nat → α → List (Nat × α)
  | [], a, x => [(a, x)]
  | (k, v) :: r, a, x =>
    if a < k then (a, x) :: (k, v) :: r
    else if k = a then (a, x) :: r
    else (k, v) :: assocPut r a x

/-- The list without a key. -/
def assocErase {α : Type} : List (Nat × α) → Nat → List (Nat × α)
  | [], _ => []
  | (k, v) :: r, a => if k = a then r else (k, v) :: assocErase r a

/-- Every key is above `lo` and the keys strictly rise. -/
def assocAbove {α : Type} : Nat → List (Nat × α) → Bool
  | _, [] => true
  | lo, (k, _) :: r => decide (lo < k) && assocAbove k r

/-- The canonical form: the keys strictly rise. -/
def assocWf {α : Type} : List (Nat × α) → Bool
  | [] => true
  | (k, _) :: r => assocAbove k r

/-! ## Physical memory -/

/-- The cells of one space. -/
def Memory.cells (m : Memory) : Space → List Host.Cell
  | .system => m.system
  | .device => m.device

/-- Memory with the cells of one space replaced. -/
def Memory.withCells (m : Memory) (sp : Space) (l : List Host.Cell) : Memory :=
  match sp with
  | .system => { m with system := l }
  | .device => { m with device := l }

/-- The canonical form of memory: in both spaces the addresses strictly rise. An unlisted address reads as no value here, so no
cell can equal it (log 4). -/
def Memory.wf (m : Memory) : Bool := assocWf m.system && assocWf m.device

/-- The byte last written at an address since RESET, if any. -/
def Memory.get (m : Memory) (sp : Space) (a : Nat) : Option Byte := assocGet (m.cells sp) a

/-- Memory with one byte written. -/
def Memory.put (m : Memory) (sp : Space) (a : Nat) (b : Byte) : Memory := m.withCells sp (assocPut (m.cells sp) a b)

/-- Memory with consecutive bytes written, the first at the lowest address. -/
def Memory.putBytes (m : Memory) (sp : Space) : Nat → List Byte → Memory
  | _, [] => m
  | a, b :: r => (m.put sp a b).putBytes sp (a + 1) r

/-- The byte at an address: the one last written since RESET, else one that nothing constrains (10_state R67, 70 R298; log 4). -/
def Memory.byteAt (m : Memory) (epoch : Nat) (sp : Space) (a : Nat) : Byte :=
  match m.get sp a with
  | some b => b
  | none => Config.powerOnByte epoch sp a

/-- `n` consecutive bytes. -/
def Memory.bytes (m : Memory) (epoch : Nat) (sp : Space) : Nat → Nat → List Byte
  | _, 0 => []
  | a, n + 1 => m.byteAt epoch sp a :: m.bytes epoch sp (a + 1) n

/-- PhysRead: the n-byte little-endian value at a physical address (00_scope R9, 20_memory R71). -/
def Memory.value (m : Memory) (epoch : Nat) (sp : Space) (pa : Word64) (n : Nat) : Nat :=
  leNat (m.bytes epoch sp pa.toNat n)

/-- One byte of the machine's memory. -/
def State.byteAt (s : State) (sp : Space) (a : Nat) : Byte := s.mem.byteAt s.epoch sp a

/-- PhysRead of the machine's memory. -/
def State.physRead (s : State) (sp : Space) (pa : Word64) (n : Nat) : Nat := s.mem.value s.epoch sp pa n

/-- Whether two byte ranges of physical memory have a byte in common; a range of no bytes meets none, so that a TABLE_WRITE of width 0
touches neither the GGTT nor anything cached (40_request_pipeline R164 is silent on it: DESIGN CHOICE, log 37). -/
def overlaps (sp : Space) (a : Nat) (n : Nat) (sp' : Space) (b : Nat) (m : Nat) : Bool :=
  sp == sp' && decide (0 < n) && decide (0 < m) && decide (a < b + m) && decide (b < a + n)

end Sys2Proof.Machine
end

