-- ==== Sys2Proof/Machine/Operands.lean ====
section
/-! DEFINITION. Operand forms: the slices of a graphics address (30_encoding R111 to R113), entry addresses (R125), physical
addresses by page size (R126), the output of TR-TT (R127), and the fields of the TR-TT registers (10_state R31 to R36). -/

namespace Sys2Proof.Machine

/-! ## Slices of an address -/

/-- GGTT index g[31:12] (30_encoding R111). -/
def idxGgtt (g : Word64) : BitVec 20 := g.extractLsb' 12 20
/-- PML4 index g[47:39] (R112). -/
def idx4 (g : Word64) : BitVec 9 := g.extractLsb' 39 9
/-- PDP index g[38:30] (R112). -/
def idx3 (g : Word64) : BitVec 9 := g.extractLsb' 30 9
/-- PD index g[29:21] (R112). -/
def idx2 (g : Word64) : BitVec 9 := g.extractLsb' 21 9
/-- PT index of a 4 KB page, g[20:12] (R112). -/
def idx1 (g : Word64) : BitVec 9 := g.extractLsb' 12 9
/-- PT index of a 64 KB page, g[20:16] : 0000 (R112, 43_ppgtt R223). -/
def idx1k64 (g : Word64) : BitVec 9 := (g.extractLsb' 16 5 ++ (0 : BitVec 4))
/-- TR-VA detection field g[47:44] (R113). -/
def trDet (g : Word64) : BitVec 4 := g.extractLsb' 44 4
/-- TR-TT L3 index g[43:35] (R113). -/
def trIdx3 (g : Word64) : BitVec 9 := g.extractLsb' 35 9
/-- TR-TT L2 index g[34:26] (R113). -/
def trIdx2 (g : Word64) : BitVec 9 := g.extractLsb' 26 9
/-- TR-TT L1 index g[25:16] (R113). -/
def trIdx1 (g : Word64) : BitVec 10 := g.extractLsb' 16 10
/-- The tile number g[47:16]. -/
def tileOf (g : Word64) : Word32 := g.extractLsb' 16 32
/-- The 32 address bits of the global space (40_request_pipeline R151). -/
def va32 (g : Word64) : Word64 := (g.extractLsb' 0 32).setWidth 64
/-- The 48 address bits of a per-process space (40_request_pipeline R151). -/
def va48 (g : Word64) : Word64 := (g.extractLsb' 0 48).setWidth 64

/-! ## Entry addresses (30_encoding R125) -/

/-- The table base an ADDR field [45:12] names. -/
def frameBase (a : BitVec 34) : Word64 := (a ++ (0 : BitVec 12)).setWidth 64
/-- The virtual table base a TR-TT ADDR field [47:12] names (30_encoding R127). -/
def trTableBase (a : BitVec 36) : Word64 := (a ++ (0 : BitVec 12)).setWidth 64
/-- base + 8 * index, 9-bit index. -/
def entry8 (base : Word64) (k : BitVec 9) : Word64 := base + k.setWidth 64 * 8
/-- base + 4 * index, 10-bit index. -/
def entry4 (base : Word64) (k : BitVec 10) : Word64 := base + k.setWidth 64 * 4
/-- GGTT_BASE + 8 * index (42_ggtt R201). -/
def ggttEntry (base : Word64) (i : BitVec 20) : Word64 := base + i.setWidth 64 * 8

/-! ## Pages -/

/-- The offset bits of a page size (43_ppgtt R226). -/
def PageSize.offBits : PageSize → Nat
  | .k4 => 12
  | .k64 => 16
  | .m2 => 21
  | .g1 => 30

/-- The address of the page that holds an address. -/
def pageBase (z : PageSize) (a : Word64) : Word64 := a >>> z.offBits <<< z.offBits

/-- The offset of an address in its page. -/
def pageOff (z : PageSize) (a : Word64) : Word64 := a - pageBase z a

/-- Page base : page offset (30_encoding R126); the base has the offset bits clear, so the sum does not carry (R131). -/
def pageAddr (z : PageSize) (base va : Word64) : Word64 := base + pageOff z va

/-- The page base of a 1 GB leaf, ADDR [45:30]. -/
def baseG1 (a : BitVec 16) : Word64 := (a ++ (0 : BitVec 30)).setWidth 64
/-- The page base of a 2 MB leaf, ADDR [45:21]. -/
def baseM2 (a : BitVec 25) : Word64 := (a ++ (0 : BitVec 21)).setWidth 64
/-- The page base of a 64 KB leaf, ADDR [45:16]. -/
def baseK64 (a : BitVec 30) : Word64 := (a ++ (0 : BitVec 16)).setWidth 64

/-- The address TR-TT gives: 0x0000 : L1 entry : gva[15:0] (30_encoding R127, 41_trtt R180). -/
def trOutput (e : Word32) (gva : Word64) : Word64 := (e ++ gva.extractLsb' 0 16).setWidth 64

/-! ## Fields of the TR-TT registers -/

/-- L3BASE: TRVATTL3PTR[47:16] : 0x0000 (10_state R31). -/
def l3Base (r : TrRegs) : Word64 := (r.l3ptr.extractLsb' 16 32 ++ (0 : BitVec 16)).setWidth 64
/-- TRVADR.TRVAMV, bits 7:4 (10_state R34). -/
def trvamv (r : TrRegs) : BitVec 4 := r.trvadr.extractLsb' 4 4
/-- TRVADR.TRVADV, bits 3:0 (10_state R34). -/
def trvadv (r : TrRegs) : BitVec 4 := r.trvadr.extractLsb' 0 4
/-- TRTTE bit 0: TR-TT Enable (10_state R36). -/
def trEnabled (r : TrRegs) : Bool := r.trtte.getLsbD 0
/-- TRTTE bit 1: tables are in virtual address space (10_state R36). -/
def trVirtual (r : TrRegs) : Bool := r.trtte.getLsbD 1

/-- The fields of TRVATTL3PTR that exist, bits 47:16 (10_state R31). -/
def l3ptrMask : Word64 := 0x0000FFFFFFFF0000#64
/-- The fields of TRVADR that exist, bits 7:0 (10_state R34). -/
def trvadrMask : Word32 := 0x000000FF#32
/-- The fields of TRTTE that exist, bits 1:0 (10_state R36). -/
def trtteMask : Word32 := 0x00000003#32

/-- A register copy with its reserved bits zero (10_state R42). -/
def regsMasked (r : TrRegs) : TrRegs :=
  { r with l3ptr := r.l3ptr &&& l3ptrMask, trvadr := r.trvadr &&& trvadrMask, trtte := r.trtte &&& trtteMask }

/-- One DWord of a context's registers as MMIO_READ assembles it, reserved bits zero (40_request_pipeline R161). -/
def regsReadDword (r : TrRegs) : RegName → Option Word32
  | .trvattl3ptrDw0 => some ((r.l3ptr &&& l3ptrMask).extractLsb' 0 32)
  | .trvattl3ptrDw1 => some ((r.l3ptr &&& l3ptrMask).extractLsb' 32 32)
  | .trnulldet => some r.nulldet
  | .trinvdet => some r.invdet
  | .trvadr => some (r.trvadr &&& trvadrMask)
  | .trtte => some (r.trtte &&& trtteMask)
  | .trbypass | .pgtblCtl | .pgtblCtl2 | .nullcnt | .offset _ => none

/-- A context's registers after MMIO_WRITE of one DWord; reserved bits are not written (40_request_pipeline R160). -/
def regsWriteDword (r : TrRegs) (n : RegName) (v : Word32) : Option TrRegs :=
  match n with
  | .trvattl3ptrDw0 => some { r with l3ptr := (r.l3ptr.extractLsb' 32 32 ++ v) &&& l3ptrMask }
  | .trvattl3ptrDw1 => some { r with l3ptr := (v ++ r.l3ptr.extractLsb' 0 32) &&& l3ptrMask }
  | .trnulldet => some { r with nulldet := v }
  | .trinvdet => some { r with invdet := v }
  | .trvadr => some { r with trvadr := v &&& trvadrMask }
  | .trtte => some { r with trtte := v &&& trtteMask }
  | .trbypass | .pgtblCtl | .pgtblCtl2 | .nullcnt | .offset _ => none

end Sys2Proof.Machine
end

