-- ==== Sys2Proof/Machine/Flags.lean ====
section
/-! DEFINITION. The conditions the rules compute: there is no flags register (10_state R61); what plays its part is the null
indicator (R60), the write permission of a path (43_ppgtt R234), the memory type bits (R238), the Local Memory bit (R237), the
TR-TT conditions (41_trtt R170, R171) and the admission conditions (40_request_pipeline R156). -/

namespace Sys2Proof.Machine

/-- The null indicator of a completion that reached memory (10_state R60). -/
def notNull : Bool := false
/-- The null indicator of a Null page, a Null tile and an Invalid tile (10_state R60, 90 C10). -/
def isNull : Bool := true

/-- The memory type selector PAT : PCD : PWT of a 4 KB or 64 KB leaf (43_ppgtt R238). -/
def memType (f : LeafBits) : BitVec 3 := BitVec.ofBool f.pat ++ BitVec.ofBool f.pcd ++ BitVec.ofBool f.pwt

/-- The memory type selector of a 2 MB or 1 GB leaf: bit 7 is PAT only where IS_LEAF does not read it (43_ppgtt R218 LargePAT). -/
def memTypeLarge (p : Params) (f : LeafBits) : BitVec 3 :=
  BitVec.ofBool (!leafReadsBit7 p && f.pat) ++ BitVec.ofBool f.pcd ++ BitVec.ofBool f.pwt

/-- The space of a leaf's page (43_ppgtt R237). -/
def pageSpace (p : Params) (lm : Bool) : Space := if p.hasLocalMemory && lm then .device else .system

/-- TRActive (41_trtt R170). -/
def trActive (p : Params) (bypassDisabled : Bool) (r : TrRegs) : Bool := p.hasTrtt && bypassDisabled && trEnabled r

/-- TRDetect (41_trtt R171); `none` is a mask the hardware does not support. -/
def trDetect (r : TrRegs) (a : Word64) : Option Bool :=
  if trvamv r = 0 then some false
  else if trvamv r = 15 then some (trDet a == trvadv r)
  else none

/-- The engines that may use TR-TT (41_trtt R188). -/
def trEngine : Engine → Bool
  | .render | .posh => true
  | .compute | .mediaDecode | .mediaEncode | .mediaEnhance | .blitter | .guc | .display | .other _ => false

/-- GVA_UPPER_OK (40_request_pipeline R156 a). A kind without a walk is refused later, in translation (R151). -/
def upperOk (p : Params) (k : CtxKind) (gva : Word64) : Bool :=
  match p.upper, k with
  | .zero, .ggtt => decide (gva.toNat < 2 ^ p.ggttVaBits)
  | .zero, .ppgtt48 => decide (gva.toNat < 2 ^ p.ppgttVaBits)
  | .zero, .advPpgtt64 => true
  | .zero, .ppgtt32 => true
  | .platform, k => Config.upperOkPlatform k gva

/-- RECOVERABLE (60_exceptions R277 e). -/
def recoverable (p : Params) (c : Cause) : Bool :=
  match p.recover with
  | .always => true
  | .never => false
  | .platform => Config.recoverablePlatform c

/-- A request's size: at least one byte and no 4 KB crossing (20_memory R76). -/
def inOnePage (gva : Word64) (n : Nat) : Bool := decide (1 ≤ n) && decide ((gva.extractLsb' 0 12).toNat + n ≤ 4096)

/-- The platform's own limits on a request (00_scope R6 MAX_REQUEST_BYTES and request alignment; log 31). -/
def shapeOk (p : Params) (gva : Word64) (n : Nat) : Bool :=
  decide (n ≤ p.maxRequestBytes) && gva.toNat % 2 ^ p.requestAlign == 0

/-- Bits 11:0 of a table base are zero (20_memory R73). -/
def aligned4k (a : Word64) : Bool := a.extractLsb' 0 12 == 0

/-- The GGTT's 8 MB end at or below 2^HAW (30_encoding R131). -/
def ggttFits (p : Params) : Bool := decide (p.ggttBase.toNat + 2 ^ 23 ≤ 2 ^ p.haw.bits)

/-- A byte range meets the GGTT's 8 MB (40_request_pipeline R153 d, R164 b). -/
def inGgtt (p : Params) (sp : Space) (a n : Nat) : Bool := overlaps sp a n .system p.ggttBase.toNat (2 ^ 23)

/-- A byte range of a space exists (20_memory R84). -/
def inMemory (p : Params) (a n : Nat) : Bool := decide (a + n ≤ 2 ^ p.haw.bits)

end Sys2Proof.Machine
end

