-- ==== Sys2Proof/Machine/Ops.lean ====
section
/-! DEFINITION. The named operations the meanings are built from: contexts, free values, the write of memory with its effect on
the quiescence premise, reads of table entries and data, the TLBs, the completion of a request, and taking a fault (60_exceptions
R272, R277). -/

namespace Sys2Proof.Machine

/-! ## Contexts -/

/-- A context's record. GLOBAL is of kind GGTT and has no TR-TT registers (40_request_pipeline R157, 41_trtt R187). -/
def State.ctx (s : State) : CtxId → Ctx
  | .global => { Ctx.initial with kind := .ggtt, loaded := true, caches := s.globalCaches }
  | .proc k => (assocGet s.ctxs k).getD Ctx.initial

/-- The state with a context's hidden state replaced. -/
def State.setCaches (s : State) (c : CtxId) (h : Caches) : State :=
  match c with
  | .global => { s with globalCaches := h }
  | .proc k => { s with ctxs := assocPut s.ctxs k { s.ctx c with caches := h } }

/-- The state with a process context's record replaced; GLOBAL's own values are fixed, only its hidden state is taken. -/
def State.setCtx (s : State) (c : CtxId) (x : Ctx) : State :=
  match c with
  | .global => { s with globalCaches := x.caches }
  | .proc k => { s with ctxs := assocPut s.ctxs k x }

/-- The hidden state after an invalidation event (20_memory R99; 43_ppgtt R240): nothing cached, history counted from here. -/
def State.flushed (s : State) : Caches := { Caches.empty with since := s.clock }

/-- An event of a platform. Where the configuration counts it among its TLB_INVALIDATION_EVENTS it discards what is cached of one
context, or of every context; any other event does nothing (00_scope R6, 92 D8; log 36). -/
def State.platformEvent (s : State) (name : Nat) (c : Option CtxId) : State :=
  if s.cfg.addedEvents.contains name then
    match c with
    | some c => s.setCaches c s.flushed
    | none =>
      { s with
        globalCaches := s.flushed
        ctxs := s.ctxs.map fun kc => (kc.1, { kc.2 with caches := s.flushed })
        flushedAt := s.clock }
  else s

/-! ## Free values -/

/-- The state after one free value has been drawn (00_scope R9 `draw`; log 13). -/
def State.drawn (s : State) : State := { s with draws := s.draws + 1 }

/-- Choose one of several admitted things, or none of them; nothing is drawn where there is nothing to choose. -/
def State.choose {α : Type} (s : State) (l : List α) : Option α × State :=
  match l with
  | [] => (none, s)
  | _ :: _ => (l[Config.choice s.draws]?, s.drawn)

/-! ## The second level (43_ppgtt R239) -/

/-- The second level with NESTE as given: the identity without it, else the platform's function on the 4 KB frame, cut to HAW bits;
`none` where none is supplied (log 22). -/
def State.slAs (s : State) (neste : Bool) (c : CtxId) (a : Word64) : Option Word64 :=
  if !neste then some a
  else if !s.cfg.slSupplied then none
  else some (belowHaw s.cfg (Config.slFrame c (a.extractLsb' 12 52) ++ a.extractLsb' 0 12))

/-- SL(ctx, gpa): the second level with the context's NESTE. -/
def State.sl (s : State) (c : CtxId) (a : Word64) : Option Word64 := s.slAs (s.ctx c).neste c a

/-! ## Writes of memory -/

/-! The quiescence premise (20_memory R95 b) is one for the whole machine: it fails when a byte is written that a cached translation of
any context was read from. A request in flight meets no write, because an operation is one step (R95 a). -/

/-- Whether a byte range is one that a cached translation of a context was read from. -/
def Caches.uses (h : Caches) (sp : Space) (a n : Nat) : Bool :=
  h.tlb.any (fun e => e.deps.any fun d => overlaps sp a n d.space d.pa.toNat d.n) ||
  h.trTlb.any (fun e => e.deps.any fun d => overlaps sp a n d.space d.pa.toNat d.n) ||
  (match h.pml4c with
   | some c => overlaps sp a n .system c.page.toNat 4096
   | none => false)

/-- Whether a byte range is one that a cached translation of any context was read from. -/
def State.inUse (s : State) (sp : Space) (a n : Nat) : Bool :=
  s.globalCaches.uses sp a n || s.ctxs.any fun kc => kc.2.caches.uses sp a n

/-- The time of a context's last invalidation event: its own, or a later one of every context (20_memory R95 c; log 9). -/
def State.lastEvent (s : State) (c : CtxId) : Nat := max (s.ctx c).caches.since s.flushedAt

/-- A context is outside the quiescence premise: the premise has failed since the context's last invalidation event (log 9). -/
def State.broken (s : State) (c : CtxId) : Bool := decide (s.lastEvent c < s.breach)

/-- PhysWrite by an agent (00_scope R9): the bytes are stored and the write enters the history; the quiescence premise fails if a cached
translation rests on the bytes (20_memory R95; log 9). -/
def State.physWrite (s : State) (who : Agent) (sp : Space) (pa : Word64) (bytes : List Byte) : State :=
  { s with
    mem := s.mem.putBytes sp pa.toNat bytes
    hist := { time := s.clock + 1, writer := who, space := sp, pa := pa, n := bytes.length, before := s.mem } :: s.hist
    clock := s.clock + 1
    breach := if s.inUse sp pa.toNat bytes.length then s.clock + 1 else s.breach }

/-! ## Reads of memory -/

/-- The writes since RESET that touched a byte range, newest first. -/
def State.writesAll (s : State) (sp : Space) (a n : Nat) : List PastWrite :=
  s.hist.filter fun w => overlaps sp a n w.space w.pa.toNat w.n

/-- Those of them since a context's last invalidation event. -/
def State.writesTo (s : State) (c : CtxId) (sp : Space) (a n : Nat) : List PastWrite :=
  (s.writesAll sp a n).filter fun w => decide (s.lastEvent c < w.time)

/-- A write stored the byte at an address of its space. -/
def PastWrite.covers (w : PastWrite) (a : Nat) : Bool := decide (w.pa.toNat ≤ a) && decide (a < w.pa.toNat + w.n)

/-- A write that covers an entry as one store (20_memory R79): the aligned full width, or more of it. -/
def PastWrite.whole (w : PastWrite) (a n : Nat) : Bool := decide (w.pa.toNat ≤ a) && decide (a + n ≤ w.pa.toNat + w.n)

/-- Which bytes of an entry have been stored since it was last complete, from the writes that touched it, newest first: when the pieces
make up the whole entry it is complete again. -/
def piecesOf (ws : List PastWrite) (a n : Nat) : List Bool :=
  ws.foldr (fun w got =>
    let now := (List.range n).map fun i => got.getD i false || w.covers (a + i)
    if now.all id then List.replicate n false else now) (List.replicate n false)

/-- An entry is being written piecewise: some but not all of its bytes have been stored (20_memory R79; log 10). -/
def State.halfWritten (s : State) (sp : Space) (a n : Nat) : Bool := (piecesOf (s.writesAll sp a n) a n).any id

/-- A read of an entry has no value the rules give: the entry is being written piecewise, or, outside the quiescence premise, was so
written since the last event (20_memory R79, R95 c). -/
def State.torn (s : State) (c : CtxId) (sp : Space) (a n : Nat) : Bool :=
  s.halfWritten sp a n || (s.broken c && (s.writesTo c sp a n).any fun w => !w.whole a n)

/-- The values an entry has held, newest first, by the writes that touched it (20_memory R95 c). -/
def State.held (s : State) (ws : List PastWrite) (sp : Space) (pa : Word64) (n : Nat) : List Nat :=
  s.physRead sp pa n :: ws.map fun w => w.before.value s.epoch sp pa n

/-- The value that a read of a PPGTT or TR-TT entry gets, with the number of the free value to use. Under the quiescence premise it is the
present value (20_memory R101 b); outside it one of the values held since the last event (R95 c); a torn entry is free (R79). Each entry
read is one value: single-copy atomic (R79). Log 9, log 10. -/
def State.tableWord (s : State) (c : CtxId) (sp : Space) (pa : Word64) (n d : Nat) : Nat :=
  if s.torn c sp pa.toNat n then (Config.tornEntry d).toNat
  else if s.broken c then
    (s.held (s.writesTo c sp pa.toNat n) sp pa n)[Config.choice d]?.getD (s.physRead sp pa n)
  else s.physRead sp pa n

/-- A read of a PPGTT or TR-TT entry, and the state after it: a free value has been drawn where there was a choice. -/
def State.readTable (s : State) (c : CtxId) (sp : Space) (pa : Word64) (n : Nat) : Nat × State :=
  (s.tableWord c sp pa n s.draws,
    if s.torn c sp pa.toNat n || (s.broken c && !(s.writesTo c sp pa.toNat n).isEmpty) then s.drawn else s)

/-- One byte of a racing data read: one of the values the byte has held, by the writes that touched the range. -/
def State.racingByte (s : State) (ws : List PastWrite) (sp : Space) (a d : Nat) : Byte :=
  (s.byteAt sp a :: (ws.filter (·.covers a)).map fun w => w.before.byteAt s.epoch sp a)[Config.choice d]?.getD (s.byteAt sp a)

/-- A data read of an engine. Under the quiescence premise it is the present value; outside it, a location that another agent has
written since the last event gives, byte by byte, one of the values held (20_memory R95 c; R79: data reads are not atomic; log 9). -/
def State.readData (s : State) (who : Engine) (c : CtxId) (sp : Space) (pa : Word64) (n : Nat) : Nat × State :=
  let ws := s.writesTo c sp pa.toNat n
  if !s.broken c || ws.all (fun w => w.writer == .engine who) then (s.physRead sp pa n, s)
  else
    (leNat ((List.range n).map fun i => s.racingByte ws sp (pa.toNat + i) (s.draws + i)), { s with draws := s.draws + n })

/-! ## The TLBs (20_memory R99, R99's choice between a cached element and a walk; log 8) -/

/-- The TLB with an element it may now hold. -/
def State.fillTlb (s : State) (c : CtxId) (e : TlbEntry) : State :=
  let h := (s.ctx c).caches
  if h.tlb.contains e then s else s.setCaches c { h with tlb := e :: h.tlb }

/-- The TR TLB with an element it may now hold. -/
def State.fillTrTlb (s : State) (c : CtxId) (e : TrTlbEntry) : State :=
  let h := (s.ctx c).caches
  if h.trTlb.contains e then s else s.setCaches c { h with trTlb := e :: h.trTlb }

/-- An element of the TLB that matches an address, or none: then the tables are walked. -/
def State.lookupTlb (s : State) (c : CtxId) (global : Bool) (va : Word64) : Option TlbEntry × State :=
  s.choose ((s.ctx c).caches.tlb.filter fun e => e.global == global && e.vbase == pageBase e.size va)

/-- An element of the TR TLB that matches an address, or none. -/
def State.lookupTrTlb (s : State) (c : CtxId) (gva : Word64) : Option TrTlbEntry × State :=
  s.choose ((s.ctx c).caches.trTlb.filter fun e => e.tile == tileOf gva)

/-- The register values a translation uses: the context's own; while its TR TLB may hold translations made under old ones, of each
register DWord any one that it has held (70_reset_and_hazards R306; log 11). -/
def State.pickRegs (s : State) (c : CtxId) : TrRegs × State :=
  let x := s.ctx c
  if x.caches.trOld.isEmpty then (x.tr, s)
  else
    let r (i : Nat) : TrRegs := (x.tr :: x.caches.trOld)[Config.choice (s.draws + i)]?.getD x.tr
    ({ l3ptr := (r 1).l3ptr.extractLsb' 32 32 ++ (r 0).l3ptr.extractLsb' 0 32
       nulldet := (r 2).nulldet
       invdet := (r 3).invdet
       trvadr := (r 4).trvadr
       trtte := (r 5).trtte }, { s with draws := s.draws + 6 })

/-! ## The end of a request -/

/-- `n` bytes of data that nothing constrains, as a value (60_exceptions R277). -/
def freeData (d n : Nat) : Nat := leNat ((List.range n).map (Config.invalidCycleByte d))

/-- The request ends with NonRecoverable: a reset is expected, a READ's data is free, a WRITE is not performed (60_exceptions R277). -/
def endNonRecoverable (wk : Walk) (s : State) : State :=
  { s with
    walk := none
    needsReset := true
    result := .nonRecoverable wk.req.id
      (if wk.req.value.isNone then some (freeData s.draws wk.req.n) else none)
    draws := s.draws + 1 }

/-- Memory after stores at any addresses that exist. -/
def Memory.spurious (p : Params) (m : Memory) (l : List (Space × Word64 × Byte)) : Memory :=
  l.foldl (fun m x => m.put (pageSpace p (x.1 == .device)) (belowHaw p x.2.1).toNat x.2.2) m

/-- Memory is unconstrained: any bytes of it have been stored (00_scope R9, 60_exceptions R277 a; log 23). -/
def State.memoryFreed (s : State) : State :=
  { s with mem := s.mem.spurious s.cfg (Config.spuriousWrites s.draws), draws := s.draws + 1 }

/-- A spurious cycle reaches its end: the request ends with NonRecoverable, and a WRITE's cycle may have stored anything anywhere
(60_exceptions R277 a; log 23). -/
def endSpurious (wk : Walk) (s : State) : State :=
  endNonRecoverable wk (if wk.req.value.isSome then s.memoryFreed else s)

/-- The request completes; a spurious cycle completes nothing (60_exceptions R277). -/
def complete (wk : Walk) (r : Result) (s : State) : Out :=
  if wk.spurious then .next (endSpurious wk s) else .next { s with walk := none, result := r }

/-- A situation the spec gives no meaning. In a spurious cycle, where the walker acts on incorrect data, the request ends instead (log
23). -/
def refuseWalk (wk : Walk) (why : Refusal) (s : State) : Out :=
  if wk.spurious then .next (endSpurious wk s) else .refused why

/-! ## Taking a fault, and the way on from one -/

/-- The position of a TR-TT level's entry. -/
def TrLevel.pos : TrLevel → Pos
  | .l3 => .trL3
  | .l2 => .trL2
  | .l1 => .trL1

/-- The request's cycle becomes an invalid cycle (60_exceptions R277): needs_reset is set. In a TR-TT table read the walker gets an
incorrect entry and goes on, what it then does is spurious, and memory is unconstrained from here on (R277 a); any other request ends,
without spurious cycles and with nothing stored (R277 d). -/
def nonRecoverable (wk : Walk) (s : State) : State :=
  match wk.stage with
  | .data => endNonRecoverable wk s
  | .table l =>
    { s.memoryFreed with
      needsReset := true
      walk := some { wk with pos := l.pos, forced := some (Config.incorrectEntry s.draws), spurious := true } }

/-- TAKING A FAULT (60_exceptions R272): the request halts with its cause, completes nothing and changes nothing else. A fault the
platform cannot repair, and any fault of a spurious cycle, goes the way of R277 at once. -/
def raiseFault (wk : Walk) (c : Cause) (s : State) : Out :=
  if !wk.spurious && recoverable s.cfg c then
    .next { s with
      walk := none
      halted := assocPut s.halted wk.req.id { req := wk.req, cause := c, stage := wk.stage }
      result := .halted wk.req.id c }
  else .next (nonRecoverable wk s)

/-! ## Null and Invalid tiles -/

/-- NullTileSeen (41_trtt R185): whatever the counter does. -/
def nullTileSeen (s : State) : State := { s with nullcnt := Config.nullTileCount s.draws, draws := s.draws + 1 }

/-- The completion of a Null page, a Null tile or an Invalid tile: zeros and the null indicator, or the write is dropped
(40_request_pipeline R154). -/
def nullCompletion (wk : Walk) : Result :=
  match wk.req.value with
  | none => .read wk.req.id 0 isNull
  | some _ => .write wk.req.id

/-- Null tile (41_trtt R183). -/
def nullTile (wk : Walk) (s : State) : Out := complete wk (nullCompletion wk) (nullTileSeen s)

/-- Invalid tile (41_trtt R184): as a Null completion, and the interrupt becomes pending (60_exceptions R269). -/
def invalidTile (wk : Walk) (s : State) : Out := complete wk (nullCompletion wk) { s with irqInvalidTile := true }

/-! ## The data access -/

/-- The data access at a physical address (40_request_pipeline R152, R153 `Phys`): permission, then the GGTT's memory, then bytes. -/
def accessPhys (wk : Walk) (sp : Space) (pa : Word64) (w : Bool) (s : State) : Out :=
  match wk.req.value with
  | none =>
    let r := s.readData wk.req.agent wk.req.ctx sp pa wk.req.n
    complete wk (.read wk.req.id r.1 notNull) r.2
  | some v =>
    if !w then raiseFault wk (.writeDenied wk.req.gva) s
    else if inGgtt s.cfg sp pa.toNat wk.req.n then refuseWalk wk .ggttDirectWrite s
    else complete wk (.write wk.req.id) (s.physWrite (.engine wk.req.agent) sp pa (leBytes wk.req.n v))

/-- The data access at a Null page (40_request_pipeline R152, R153 `NullPage`; 92 D14). -/
def accessNullPage (wk : Walk) (w : Bool) (s : State) : Out :=
  if wk.req.value.isSome && !w then raiseFault wk (.writeDenied wk.req.gva) s
  else complete wk (nullCompletion wk) s

/-- A GGTT translation is complete: no second level (42_ggtt R207). -/
def ggttDone (wk : Walk) (out : Mapping) (s : State) : Out :=
  match out with
  | .page sp base _ w => accessPhys wk sp (pageAddr .k4 base wk.va) w s
  | .null w => accessNullPage wk w s

/-- A PPGTT translation of `wk.va` is complete, the second level on or not: the data access, or the read of a TR-TT table entry (41_trtt
R176). -/
def ppgttDone (wk : Walk) (z : PageSize) (out : Mapping) (nested : Bool) (deps : List Dep) (s : State) : Out :=
  match out with
  | .page sp base _ w =>
    match s.slAs nested wk.req.ctx (pageAddr z base wk.va) with
    | none => refuseWalk wk .nestedTranslationUnmodelled s
    | some pa =>
      match wk.stage with
      | .data => accessPhys wk sp pa w s
      | .table l =>
        .next { s with walk := some { wk with pos := l.pos, space := sp, pa := pa, trDeps := deps ++ wk.trDeps } }
  | .null w =>
    match wk.stage with
    | .data => accessNullPage wk w s
    | .table _ => refuseWalk wk .trttTableInNullPage s

/-! ## The start of a walk -/

/-- GGTT_Translate (42_ggtt R201): from the TLB, or by reading the entry at GGTT_BASE + 8 * index. -/
def beginGgtt (wk : Walk) (s : State) : Out :=
  let r := s.lookupTlb wk.req.ctx true wk.va
  match r.1 with
  | some e => ggttDone wk e.out r.2
  | none =>
    if !aligned4k s.cfg.ggttBase then refuseWalk wk .misalignedTableBase r.2
    else if !ggttFits s.cfg then refuseWalk wk .ggttBeyondMemory r.2
    else .next { r.2 with
      walk := some { wk with pos := .ggtt, space := .system, pa := ggttEntry s.cfg.ggttBase (idxGgtt wk.va), w := true,
                             deps := [], forced := none } }

/-- The 512 entries of the PML4 table in a physical page (43_ppgtt R240). -/
def State.pml4Entries (s : State) (c : CtxId) (page : Word64) : List Word64 :=
  (List.range 512).map fun j =>
    BitVec.ofNat 64 (s.tableWord c .system (page + BitVec.ofNat 64 (8 * j)) 8 (s.draws + j))

/-- The PML4 cache of a context, filled whole at first demand from the page at a physical address (43_ppgtt R240): 512 entry reads, each
atomic, the whole not (20_memory R79; log 12). -/
def State.fillPml4 (s : State) (c : CtxId) (page : Word64) : State :=
  let h := (s.ctx c).caches
  match h.pml4c with
  | some _ => s
  | none =>
    { s.setCaches c { h with pml4c := some { page := page, entries := s.pml4Entries c page } } with draws := s.draws + 512 }

/-- PPGTT_Walk (43_ppgtt R218): from the TLB, or from the PML4 entry down. Where several stops apply to the context's PML4 pointer the spec
orders them nowhere (60_exceptions R280 names none of them): the model takes MISALIGNED_TABLE_BASE (20_memory R73) first, then the fault
noSuchPhysicalAddress (log 21), then NESTED_TRANSLATION_UNMODELLED (R239). DESIGN CHOICE (log 29). -/
def beginPpgtt (wk : Walk) (s : State) : Out :=
  let r := s.lookupTlb wk.req.ctx false wk.va
  match r.1 with
  | some e => ppgttDone wk e.size e.out e.nested e.deps r.2
  | none =>
    let x := s.ctx wk.req.ctx
    if !aligned4k x.pml4 then refuseWalk wk .misalignedTableBase r.2
    else if !inMemory s.cfg x.pml4.toNat 4096 then .fault .noSuchPhysicalAddress
    else match s.sl wk.req.ctx x.pml4 with
    | none => refuseWalk wk .nestedTranslationUnmodelled r.2
    | some page =>
      let s1 := r.2.fillPml4 wk.req.ctx page
      .next { s1 with
        walk := some { wk with pos := .pml4, space := .system, pa := entry8 page (idx4 wk.va), w := true, deps := [],
                               forced := none } }

/-- TRTableRead (41_trtt R176): the table address may not be a TR-VA; it is translated by the PPGTT. -/
def tableRead (wk : Walk) (l : TrLevel) (a : Word64) (s : State) : Out :=
  match trDetect wk.regs a with
  | none => refuseWalk wk .trvamvUnsupported s
  | some true => refuseWalk wk .trttTableInTrva s
  | some false => beginPpgtt { wk with stage := .table l, va := va48 a, forced := none } s

/-- TR-TT has given a virtual address: the PPGTT translates it, and it is not detected again (40_request_pipeline R151). -/
def tileMapped (wk : Walk) (e : Word32) (s : State) : Out :=
  beginPpgtt { wk with stage := .data, va := va48 (trOutput e wk.req.gva), forced := none } s

/-- What a tile's outcome does to the request. -/
def tileDone (wk : Walk) (o : TileOut) (s : State) : Out :=
  match o with
  | .mapped e => tileMapped wk e s
  | .null => nullTile wk s
  | .invalid => invalidTile wk s

/-- TRTT_Walk (41_trtt R175): from the TR TLB, or from the L3 entry on after the checks of the registers. -/
def beginTrtt (wk : Walk) (s : State) : Out :=
  let r := s.lookupTrTlb wk.req.ctx wk.req.gva
  match r.1 with
  | some e => tileDone wk e.out r.2
  | none =>
    if !trVirtual wk.regs then refuseWalk wk .trttGpaMode r.2
    else if wk.regs.nulldet = wk.regs.invdet then refuseWalk wk .trttNullEqInvalid r.2
    else tableRead wk .l3 (entry8 (l3Base wk.regs) (trIdx3 wk.req.gva)) r.2

/-- The walk record of a request before anything has been read. -/
def Walk.start (q : Request) (r : TrRegs) : Walk :=
  { req := q, regs := r, stage := .data, pos := .pml4, va := va48 q.gva, space := .system, pa := 0, w := true, deps := [],
    trDeps := [], forced := none, spurious := false }

/-- Translate (40_request_pipeline R151): choose the translator. -/
def beginTranslate (q : Request) (s : State) : Out :=
  let r := s.pickRegs q.ctx
  let wk := Walk.start q r.1
  match (s.ctx q.ctx).kind with
  | .ggtt =>
    if q.ctx != .global && trActive s.cfg s.trbypass r.1 then .refused .trttContext
    else beginGgtt { wk with va := va32 q.gva } r.2
  | .ppgtt48 =>
    if trActive s.cfg s.trbypass r.1 then
      match trDetect r.1 q.gva with
      | none => .refused .trvamvUnsupported
      | some true => if trEngine q.agent then beginTrtt wk r.2 else .refused .trttEngine
      | some false => beginPpgtt wk r.2
    else beginPpgtt wk r.2
  | .advPpgtt64 => .refused .undefinedPpgttMode
  | .ppgtt32 => .refused .undefinedPpgttMode

/-- The admission of a request (40_request_pipeline R156), in the order of 60_exceptions R280; the place of requestShape is the model's
DESIGN CHOICE (log 31). -/
def admission (q : Request) (s : State) : Option Refusal :=
  if !upperOk s.cfg (s.ctx q.ctx).kind q.gva then some .gvaUpperBits
  else if !inOnePage q.gva q.n then some .requestCrosses4kb
  else if !shapeOk s.cfg q.gva q.n then some .requestShape
  else if s.needsReset then some .afterNonrecoverableFault
  else none

/-! ## Steps of a walk that every level shares -/

/-- The walk in progress, if it is about to read the given position's entry. -/
def State.walkAt (s : State) (pos : Pos) : Option Walk :=
  match s.walk with
  | some wk => if wk.pos = pos then some wk else none
  | none => none

/-- The entry the walk has just read, as memory a translation rests on. -/
def Walk.dep (wk : Walk) : Dep := { space := wk.space, pa := wk.pa, n := entryBytes wk.pos }

/-- The walk with the entry it has just read added to what it rests on; PML4 entries come from the cache, not from memory. -/
def Walk.noted (wk : Walk) : Walk := if wk.pos = .pml4 then wk else { wk with deps := wk.dep :: wk.deps }

/-- A pointer entry of the PPGTT (43_ppgtt R219 to R221): permission is accumulated, the next entry is at SL(base + 8 * index). -/
def descend (wk : Walk) (next : Pos) (base : Word64) (k : BitVec 9) (rw : Bool) (s : State) : Out :=
  match s.sl wk.req.ctx (entry8 base k) with
  | none => refuseWalk wk .nestedTranslationUnmodelled s
  | some pa =>
    .next { s with walk := some { wk.noted with pos := next, space := .system, pa := pa, w := wk.w && rw } }

/-- A leaf entry of the PPGTT (43_ppgtt R218 Leaf): Null before everything but Present and permission. -/
def leaf (wk : Walk) (z : PageSize) (base : Word64) (sp : Space) (mt : BitVec 3) (f : LeafBits) (s : State) : Out :=
  let wk1 := wk.noted
  let w := wk.w && f.rw
  let out : Mapping := if f.null then .null w else .page sp base mt w
  let nested := (s.ctx wk.req.ctx).neste
  let s1 := s.fillTlb wk.req.ctx
    { global := false, size := z, vbase := pageBase z wk.va, out := out, nested := nested, deps := wk1.deps }
  ppgttDone wk1 z out nested wk1.deps s1

/-- What a TR-TT entry adds to what the TR-TT walk rests on. -/
def Walk.trNoted (wk : Walk) : Walk := { wk with trDeps := wk.dep :: wk.trDeps }

/-- A Null, Invalid or mapped outcome of the TR-TT walk: the TR TLB may hold it (41_trtt R175), and the request goes on. -/
def tileFound (wk : Walk) (o : TileOut) (s : State) : Out :=
  let wk1 := wk.trNoted
  tileDone wk1 o (s.fillTrTlb wk.req.ctx { tile := tileOf wk.req.gva, out := o, deps := wk1.trDeps })

/-- A TR-TT pointer entry with address bit 47 as given: Dual Context refuses it where it is used (41_trtt R175 d, R189; log 24), before the
table it points at is looked at. The spec does not order this refusal and those of `tableRead`: DESIGN CHOICE (log 29). -/
def trDescend (wk : Walk) (bit47 : Bool) (l : TrLevel) (a : Word64) (s : State) : Out :=
  if s.cfg.dualContext && bit47 then refuseWalk wk .trttDualContextBit47 s
  else tableRead wk.trNoted l a s

/-! ## Registers -/

/-- The state after a write of a context's registers. While its TR TLB may hold translations made under the old values, translations may
go on using those, and the quiescence premise fails (70_reset_and_hazards R306, 20_memory R95 b; log 11). -/
def State.setRegs (s : State) (k : Nat) (r : TrRegs) : State :=
  let x := s.ctx (.proc k)
  if x.caches.trTlb.isEmpty && x.caches.trOld.isEmpty then s.setCtx (.proc k) { x with tr := r }
  else
    { s.setCtx (.proc k) { x with tr := r, caches := { x.caches with trOld := x.tr :: x.caches.trOld } } with
      clock := s.clock + 1
      breach := s.clock + 1 }

/-- The register an MMIO operand names: 0x4DFC is TRBYPASS, the other offsets are the configuration's (92 D25; log 26). -/
def resolve (p : Params) : RegName → RegName
  | .offset o => if o = 0x4DFC#32 then .trbypass else (p.offsets.lookup o).getD (.offset o)
  | r => r

end Sys2Proof.Machine
end

