-- ==== Sys2Proof/Machine/Ggtt.lean ====
section
/-! DEFINITION. The meanings of the entries the GGTT walk reads (42_ggtt), and of a not-present entry at any level (60_exceptions
R261). -/

namespace Sys2Proof.Machine

/-- GGTT_PTE (42_ggtt R201): the page is in System memory, writable, memory type 000; the Function Number is ignored. -/
def execGgttPte (addr : BitVec 34) (_fn : BitVec 3) (s : State) : Out :=
  match s.walkAt .ggtt with
  | none => .refused .entryOutOfPlace
  | some wk =>
    let out : Mapping := .page .system (frameBase addr) 0 true
    let wk1 := wk.noted
    ggttDone wk1 out
      (s.fillTlb wk.req.ctx
        { global := true, size := .k4, vbase := pageBase .k4 wk.va, out := out, nested := false, deps := wk1.deps })

/-- The level whose entry is read at a position; TR-TT entries have no Present bit (60_exceptions R265 b). -/
def levelOf : Pos → Option Level
  | .ggtt => some .ggtt
  | .pml4 => some .pml4
  | .pdp => some .pdp
  | .pd => some .pd
  | .pt4k | .pt64k => some .pt
  | .trL3 | .trL2 | .trL1 => none

/-- NOT_PRESENT (60_exceptions R261): the request faults with the level and the address being walked. -/
def execNotPresent (s : State) : Out :=
  match s.walk with
  | none => .refused .entryOutOfPlace
  | some wk =>
    match levelOf wk.pos with
    | none => .refused .entryOutOfPlace
    | some l => raiseFault wk (.notPresent l wk.va) s

end Sys2Proof.Machine
end

