-- ==== Sys2Proof/Machine/Ppgtt.lean ====
section
/-! DEFINITION. The meanings of the entries the PPGTT walk reads (43_ppgtt R218 to R225). -/

namespace Sys2Proof.Machine

/-- PML4E (43_ppgtt R219): a pointer to a PDP table. -/
def execPml4e (addr : BitVec 34) (rw : Bool) (s : State) : Out :=
  match s.walkAt .pml4 with
  | none => .refused .entryOutOfPlace
  | some wk => descend wk .pdp (frameBase addr) (idx3 wk.va) rw s

/-- PDPE_PD (43_ppgtt R220): a pointer to a page directory. -/
def execPdpePd (addr : BitVec 34) (rw : Bool) (s : State) : Out :=
  match s.walkAt .pdp with
  | none => .refused .entryOutOfPlace
  | some wk => descend wk .pd (frameBase addr) (idx2 wk.va) rw s

/-- PDPE_1GB (43_ppgtt R225): a 1 GB page. -/
def execPdpe1gb (addr : BitVec 16) (lm : Bool) (f : LeafBits) (s : State) : Out :=
  match s.walkAt .pdp with
  | none => .refused .entryOutOfPlace
  | some wk => leaf wk .g1 (baseG1 addr) (pageSpace s.cfg lm) (memTypeLarge s.cfg f) f s

/-- PDE_PT (43_ppgtt R221): a pointer to a page table, of 64 KB pages where bit 11 is set (R223), else of 4 KB pages (R222). -/
def execPdePt (addr : BitVec 34) (ind64 rw : Bool) (s : State) : Out :=
  match s.walkAt .pd with
  | none => .refused .entryOutOfPlace
  | some wk =>
    if ind64 then descend wk .pt64k (frameBase addr) (idx1k64 wk.va) rw s
    else descend wk .pt4k (frameBase addr) (idx1 wk.va) rw s

/-- PDE_2MB (43_ppgtt R224): a 2 MB page. -/
def execPde2mb (addr : BitVec 25) (lm : Bool) (f : LeafBits) (s : State) : Out :=
  match s.walkAt .pd with
  | none => .refused .entryOutOfPlace
  | some wk => leaf wk .m2 (baseM2 addr) (pageSpace s.cfg lm) (memTypeLarge s.cfg f) f s

/-- PTE_64KB (43_ppgtt R223): a 64 KB page. -/
def execPte64kb (addr : BitVec 30) (lm : Bool) (f : LeafBits) (s : State) : Out :=
  match s.walkAt .pt64k with
  | none => .refused .entryOutOfPlace
  | some wk => leaf wk .k64 (baseK64 addr) (pageSpace s.cfg lm) (memType f) f s

/-- PTE_4KB (43_ppgtt R222): a 4 KB page, always in System memory: the format has no Local Memory bit. -/
def execPte4kb (addr : BitVec 34) (f : LeafBits) (s : State) : Out :=
  match s.walkAt .pt4k with
  | none => .refused .entryOutOfPlace
  | some wk => leaf wk .k4 (frameBase addr) .system (memType f) f s

end Sys2Proof.Machine
end

