-- ==== Sys2Proof/Machine/Trtt.lean ====
section
/-! DEFINITION. The meanings of the entries the TR-TT walk reads (41_trtt R172 to R180). -/

namespace Sys2Proof.Machine

/-- TRTT_L3_POINTER (41_trtt R172, R173): the L2 entry is read next, at L2BASE + 8 * gva[34:26]. -/
def execTrttL3Pointer (addr : BitVec 36) (s : State) : Out :=
  match s.walkAt .trL3 with
  | none => .refused .entryOutOfPlace
  | some wk => trDescend wk (addr.getLsbD 35) .l2 (entry8 (trTableBase addr) (trIdx2 wk.req.gva)) s

/-- TRTT_L3_NULL (41_trtt R178): a Null tile; no lower table is read. -/
def execTrttL3Null (s : State) : Out :=
  match s.walkAt .trL3 with
  | none => .refused .entryOutOfPlace
  | some wk => tileFound wk .null s

/-- TRTT_L3_INVALID (41_trtt R178): an Invalid tile; no lower table is read. -/
def execTrttL3Invalid (s : State) : Out :=
  match s.walkAt .trL3 with
  | none => .refused .entryOutOfPlace
  | some wk => tileFound wk .invalid s

/-- TRTT_L3_NULL_AND_INVALID (41_trtt R178): no meaning in the source. -/
def execTrttL3NullAndInvalid (s : State) : Out :=
  match s.walkAt .trL3 with
  | none => .refused .entryOutOfPlace
  | some wk => refuseWalk wk .trttNullAndInvalid s

/-- TRTT_L2_POINTER (41_trtt R173, R174): the L1 entry is read next, at L1BASE + 4 * gva[25:16]. -/
def execTrttL2Pointer (addr : BitVec 36) (s : State) : Out :=
  match s.walkAt .trL2 with
  | none => .refused .entryOutOfPlace
  | some wk => trDescend wk (addr.getLsbD 35) .l1 (entry4 (trTableBase addr) (trIdx1 wk.req.gva)) s

/-- TRTT_L2_NULL (41_trtt R178). -/
def execTrttL2Null (s : State) : Out :=
  match s.walkAt .trL2 with
  | none => .refused .entryOutOfPlace
  | some wk => tileFound wk .null s

/-- TRTT_L2_INVALID (41_trtt R178). -/
def execTrttL2Invalid (s : State) : Out :=
  match s.walkAt .trL2 with
  | none => .refused .entryOutOfPlace
  | some wk => tileFound wk .invalid s

/-- TRTT_L2_NULL_AND_INVALID (41_trtt R178): no meaning in the source. -/
def execTrttL2NullAndInvalid (s : State) : Out :=
  match s.walkAt .trL2 with
  | none => .refused .entryOutOfPlace
  | some wk => refuseWalk wk .trttNullAndInvalid s

/-- What an L1 entry says of its tile (41_trtt R179): Invalid, Null, or an address. -/
def l1Outcome (r : TrRegs) (e : Word32) : TileOut :=
  if e = r.invdet then .invalid else if e = r.nulldet then .null else .mapped e

/-- TRTT_L1 (41_trtt R174, R179, R180). -/
def execTrttL1 (addr : Word32) (s : State) : Out :=
  match s.walkAt .trL1 with
  | none => .refused .entryOutOfPlace
  | some wk =>
    match l1Outcome wk.regs addr with
    | .mapped e =>
      if s.cfg.dualContext && e.getLsbD 31 then refuseWalk wk .trttDualContextBit47 s
      else tileFound wk (.mapped e) s
    | .null => tileFound wk .null s
    | .invalid => tileFound wk .invalid s

end Sys2Proof.Machine
end

