-- ==== Sys2Proof/Machine/Walk.lean ====
section
/-! DEFINITION. The walker: it fetches the entry at the walk's position, decodes it and executes it, until the request ends. -/

namespace Sys2Proof.Machine

/-- The word the walker gets at the walk's position (20_memory R78): the incorrect value after a non-recoverable fault (60_exceptions
R277), a PML4 entry from the cache (43_ppgtt R240), a GGTT entry as memory holds it (42_ggtt R206), any other entry by `readTable`. -/
def fetchWord (wk : Walk) (s : State) : Word64 × State :=
  match wk.forced with
  | some v => (v, s)
  | none =>
    match wk.pos with
    | .pml4 =>
      match (s.ctx wk.req.ctx).caches.pml4c with
      | some c => (c.entries.getD (idx4 wk.va).toNat 0, s)
      | none =>
        let r := s.readTable wk.req.ctx wk.space wk.pa 8
        (BitVec.ofNat 64 r.1, r.2)
    | .ggtt => (BitVec.ofNat 64 (s.physRead wk.space wk.pa 8), s)
    | .pdp | .pd | .pt4k | .pt64k | .trL3 | .trL2 | .trL1 =>
      let r := s.readTable wk.req.ctx wk.space wk.pa (entryBytes wk.pos)
      (BitVec.ofNat 64 r.1, r.2)

/-- The entry the walker fetches, decoded by its position (30_encoding R128), and the state after the fetch. -/
def fetch (wk : Walk) (s : State) : Instr × State :=
  let r := fetchWord wk s
  (decodeEntry s.cfg wk.pos r.1, r.2)

/-- An entry executed inside a request. An operation is no entry. -/
def execEntry (i : Instr) (s : State) : Out :=
  match i with
  | .ggttPte a fn => execGgttPte a fn s
  | .pml4e a rw => execPml4e a rw s
  | .pdpePd a rw => execPdpePd a rw s
  | .pdpe1gb a lm f => execPdpe1gb a lm f s
  | .pdePt a x rw => execPdePt a x rw s
  | .pde2mb a lm f => execPde2mb a lm f s
  | .pte64kb a lm f => execPte64kb a lm f s
  | .pte4kb a f => execPte4kb a f s
  | .notPresent => execNotPresent s
  | .trttL3Pointer a => execTrttL3Pointer a s
  | .trttL3Null => execTrttL3Null s
  | .trttL3Invalid => execTrttL3Invalid s
  | .trttL3NullAndInvalid => execTrttL3NullAndInvalid s
  | .trttL2Pointer a => execTrttL2Pointer a s
  | .trttL2Null => execTrttL2Null s
  | .trttL2Invalid => execTrttL2Invalid s
  | .trttL2NullAndInvalid => execTrttL2NullAndInvalid s
  | .trttL1 a => execTrttL1 a s
  | .read .. | .write .. | .mmioWrite .. | .mmioRead .. | .ggttUpdate .. | .miUpdateGtt .. | .tableWrite ..
  | .ctxLoad .. | .faultResponse .. | .ackInvalidTile | .reset => .refused .entryOutOfPlace

/-- One entry of the walk. -/
def walkStep (wk : Walk) (s : State) : Out :=
  let r := fetch wk s
  execEntry r.1 r.2

/-- The walk to its end, at most `k` entries. -/
def runWalk : Nat → State → Out
  | 0, s => .next s
  | k + 1, s =>
    match s.walk with
    | none => .next s
    | some wk =>
      match walkStep wk s with
      | .next t => runWalk k t
      | .fault f => .fault f
      | .refused r => .refused r

/-- The most entries one request reads: three TR-TT entries, each behind four PPGTT entries, and four for the data address
(10_state R64). -/
def walkBound : Nat := 19

/-- An operation's state after its beginning, with the walk it opened run to its end: the operation is one atomic step (20_memory
R95 a). -/
def finish (o : Out) : Out :=
  match o with
  | .next t => runWalk walkBound t
  | .fault f => .fault f
  | .refused r => .refused r

/-- A request from its admission to its end (40_request_pipeline R152, R153, R156; re-executed by 60_exceptions R274). -/
def runRequest (q : Request) (s : State) : Out :=
  match admission q s with
  | some why => .refused why
  | none => finish (beginTranslate q s)

end Sys2Proof.Machine
end

