-- ==== Sys2Proof/Machine/Control.lean ====
section
/-! DEFINITION. The host's control operations: CTX_LOAD (40_request_pipeline R165), FAULT_RESPONSE (60_exceptions R274, R277),
ACK_INVALID_TILE (60_exceptions R270) and RESET (70_reset_and_hazards R290). -/

namespace Sys2Proof.Machine

/-- A context with the values of its image (10_state R46), its TR-TT registers apart (log 17). -/
def Ctx.load (x : Ctx) (m : CtxImage) : Ctx :=
  { x with kind := m.kind, pml4 := m.pml4, neste := m.neste, wpe := m.wpe, loaded := true }

/-- The registers a context has after its image is loaded: the image's where it restores them (log 17). -/
def regsAfterLoad (m : CtxImage) (old : TrRegs) : TrRegs :=
  match m.regs with
  | some r => regsMasked r
  | none => old

/-- CTX_LOAD ctx (40_request_pipeline R165): its values are those of the image, and its TLB, TR TLB and PML4 cache are emptied where
CTX_LOAD is an invalidation event (20_memory R99; log 36); where it is not, a change of registers counts as a register write. GLOBAL has
no values to load. -/
def execCtxLoad (ctx : CtxId) (image : CtxImage) (s : State) : Out :=
  let x := (s.ctx ctx).load image
  if s.cfg.ctxLoadInvalidates then
    .next { s.setCtx ctx { x with tr := regsAfterLoad image x.tr, caches := s.flushed } with result := .done }
  else
    match ctx, image.regs with
    | .proc k, some r => .next { (s.setCtx ctx x).setRegs k (regsMasked r) with result := .done }
    | .proc _, none => .next { s.setCtx ctx x with result := .done }
    | .global, _ => .next { s with result := .done }

/-- FAULT_RESPONSE request, ok (60_exceptions R274): the request is executed again from its admission. Unsuccessful (R277): it ends
with NonRecoverable, in a TR-TT table read after a walk with incorrect data. The spec does not say which values of the TR-TT registers
that walk goes on with: the model takes those in force at the response (pickRegs), not those the halted walk began with. DESIGN CHOICE (log
23). -/
def execFaultResponse (request : Nat) (ok : Bool) (s : State) : Out :=
  match assocGet s.halted request with
  | none => .refused .noSuchFault
  | some h =>
    let s1 := { s with halted := assocErase s.halted request, walk := none }
    if ok then runRequest h.req s1
    else
      let r := s1.pickRegs h.req.ctx
      finish (.next (nonRecoverable { Walk.start h.req r.1 with stage := h.stage } r.2))

/-- ACK_INVALID_TILE (60_exceptions R270): the pending interrupt is cleared. -/
def execAckInvalidTile (s : State) : Out := .next { s with irqInvalidTile := false, result := .done }

/-- A context after RESET: registers at their defaults, nothing cached (70_reset_and_hazards R290). -/
def Ctx.afterReset (x : Ctx) : Ctx := { x with loaded := false, tr := TrRegs.reset, caches := Caches.empty }

/-- RESET (70_reset_and_hazards R290). Memory is not to be relied on afterwards: every byte is one that nothing constrains (10_state
R67; log 4). The configuration, NULLCNT and the per-context values stay. -/
def execReset (s : State) : Out :=
  .next { s with
    mem := { system := [], device := [] }
    epoch := s.epoch + 1
    trbypass := false
    globalCaches := Caches.empty
    ctxs := s.ctxs.map (fun kc => (kc.1, Ctx.afterReset kc.2))
    irqInvalidTile := false
    halted := []
    needsReset := false
    walk := none
    hist := []
    clock := 0
    breach := 0
    flushedAt := 0
    result := .done }

end Sys2Proof.Machine
end

