-- ==== Sys2Proof/Machine/Registers.lean ====
section
/-! DEFINITION. Register access by the host: MMIO_WRITE and MMIO_READ (40_request_pipeline R160, R161). -/

namespace Sys2Proof.Machine

/-- A write of a context's register DWord; GLOBAL has none (41_trtt R187; log 27). -/
def writeCtxReg (r : RegName) (c : CtxId) (v : Word32) (s : State) : Out :=
  match c with
  | .global => .refused .unmodelledRegister
  | .proc k =>
    match regsWriteDword (s.ctx (.proc k)).tr r v with
    | none => .refused .unmodelledRegister
    | some t => .next { s.setRegs k t with result := .done }

/-- A read of a context's register DWord. -/
def readCtxReg (r : RegName) (c : CtxId) (s : State) : Out :=
  match c with
  | .global => .refused .unmodelledRegister
  | .proc k =>
    match regsReadDword (s.ctx (.proc k)).tr r with
    | none => .refused .unmodelledRegister
    | some v => .next { s with result := .register v }

/-- MMIO_WRITE reg@ctx, value (40_request_pipeline R160). -/
def execMmioWrite (reg : RegName) (ctx : CtxId) (value : Word32) (s : State) : Out :=
  match resolve s.cfg reg with
  | .trbypass => .next { s with trbypass := value.getLsbD 0, result := .done }
  | .trvattl3ptrDw0 => writeCtxReg .trvattl3ptrDw0 ctx value s
  | .trvattl3ptrDw1 => writeCtxReg .trvattl3ptrDw1 ctx value s
  | .trnulldet => writeCtxReg .trnulldet ctx value s
  | .trinvdet => writeCtxReg .trinvdet ctx value s
  | .trvadr => writeCtxReg .trvadr ctx value s
  | .trtte => writeCtxReg .trtte ctx value s
  | .pgtblCtl | .pgtblCtl2 | .nullcnt | .offset _ => .refused .unmodelledRegister

/-- MMIO_READ reg@ctx (40_request_pipeline R161): reserved bits read 0; NULLCNT and bits 31:1 of 0x4DFC are free values. -/
def execMmioRead (reg : RegName) (ctx : CtxId) (s : State) : Out :=
  match resolve s.cfg reg with
  | .trbypass =>
    .next { s with result := .register (Config.bypassUpper s.draws ++ BitVec.ofBool s.trbypass), draws := s.draws + 1 }
  | .nullcnt => .next { s with result := .register (Config.nullTileCount s.draws), draws := s.draws + 1 }
  | .trvattl3ptrDw0 => readCtxReg .trvattl3ptrDw0 ctx s
  | .trvattl3ptrDw1 => readCtxReg .trvattl3ptrDw1 ctx s
  | .trnulldet => readCtxReg .trnulldet ctx s
  | .trinvdet => readCtxReg .trinvdet ctx s
  | .trvadr => readCtxReg .trvadr ctx s
  | .trtte => readCtxReg .trtte ctx s
  | .pgtblCtl | .pgtblCtl2 | .offset _ => .refused .unmodelledRegister

end Sys2Proof.Machine
end

