-- ==== Sys2Proof/Machine/Requests.lean ====
section
/-! DEFINITION. The memory requests of engines: READ and WRITE (40_request_pipeline R152, R153). -/

namespace Sys2Proof.Machine

/-- READ agent, ctx, gva, n (40_request_pipeline R152). -/
def execRead (agent : Engine) (ctx : CtxId) (gva : Word64) (n : Nat) (s : State) : Out :=
  runRequest { id := s.nextReq, agent := agent, ctx := ctx, gva := gva, n := n, value := none }
    { s with nextReq := s.nextReq + 1, walk := none }

/-- WRITE agent, ctx, gva, n, value (40_request_pipeline R153). -/
def execWrite (agent : Engine) (ctx : CtxId) (gva : Word64) (n value : Nat) (s : State) : Out :=
  runRequest { id := s.nextReq, agent := agent, ctx := ctx, gva := gva, n := n, value := some value }
    { s with nextReq := s.nextReq + 1, walk := none }

end Sys2Proof.Machine
end

