-- ==== Sys2Proof/Machine/Tables.lean ====
section
/-! DEFINITION. Updates of translation tables: GGTT_UPDATE, MI_UPDATE_GTT and TABLE_WRITE (40_request_pipeline R162 to R164). -/

namespace Sys2Proof.Machine

/-- Whether GGTT_BASE is one the spec admits (20_memory R73, 30_encoding R131). -/
def ggttRefusal (p : Params) : Option Refusal :=
  if !aligned4k p.ggttBase then some .misalignedTableBase
  else if !ggttFits p then some .ggttBeyondMemory
  else none

/-- One entry written: PhysWrite(System, GGTT_BASE + 8 * i, 8, e) (40_request_pipeline R162). -/
def writeGgttEntry (who : Agent) (s : State) (u : BitVec 20 × Word64) : State :=
  s.physWrite who .system (ggttEntry s.cfg.ggttBase u.1) (leBytes 8 u.2.toNat)

/-- GGTT_UPDATE index, entry (40_request_pipeline R162). -/
def execGgttUpdate (index : BitVec 20) (entry : Word64) (s : State) : Out :=
  match ggttRefusal s.cfg with
  | some r => .refused r
  | none => .next { writeGgttEntry .host s (index, entry) with result := .done }

/-- MI_UPDATE_GTT updates: the GGTT_UPDATEs in order, by the command streamer (40_request_pipeline R163; log 35). With no update, which
R163's "finite sequence" admits and R146's "one or more" does not, it is well-formed, is done and changes nothing. DESIGN CHOICE (log
35). -/
def execMiUpdateGtt (updates : List (BitVec 20 × Word64)) (s : State) : Out :=
  match ggttRefusal s.cfg with
  | some r => .refused r
  | none => .next { updates.foldl (writeGgttEntry .commandStreamer) s with result := .done }

/-- TABLE_WRITE space:pa, n, value (40_request_pipeline R164); an address that does not exist stops the machine (log 21).
R164 admits any width and is silent on 0: no byte is stored and nothing changes. DESIGN CHOICE (log 37). Where several stops apply the order
is no such memory space, no such address, GGTT: DESIGN CHOICE (log 29). -/
def execTableWrite (space : Space) (pa : Word64) (n value : Nat) (s : State) : Out :=
  if n = 0 then .next { s with result := .done }
  else if space == .device && !s.cfg.hasLocalMemory then .fault .noDeviceMemory
  else if !inMemory s.cfg pa.toNat n then .fault .noSuchPhysicalAddress
  else if inGgtt s.cfg space pa.toNat n then .refused .ggttDirectWrite
  else .next { s.physWrite .host space pa (leBytes n value) with result := .done }

end Sys2Proof.Machine
end

