-- ==== Sys2Proof/Machine/Dispatch.lean ====
section
/-! DEFINITION. One arm per constructor of Instr, each one call of its meaning. -/

namespace Sys2Proof.Machine

/-- The meaning of an instruction: an entry format where the walk in progress reads it, or an operation. -/
def exec (i : Instr) (s : State) : Host.Outcome State Fault Refusal :=
  match i with
  | .ggttPte addr fn => Sys2Proof.Machine.execGgttPte addr fn s
  | .pml4e addr rw => Sys2Proof.Machine.execPml4e addr rw s
  | .pdpePd addr rw => Sys2Proof.Machine.execPdpePd addr rw s
  | .pdpe1gb addr lm f => Sys2Proof.Machine.execPdpe1gb addr lm f s
  | .pdePt addr ind64 rw => Sys2Proof.Machine.execPdePt addr ind64 rw s
  | .pde2mb addr lm f => Sys2Proof.Machine.execPde2mb addr lm f s
  | .pte64kb addr lm f => Sys2Proof.Machine.execPte64kb addr lm f s
  | .pte4kb addr f => Sys2Proof.Machine.execPte4kb addr f s
  | .notPresent => Sys2Proof.Machine.execNotPresent s
  | .trttL3Pointer addr => Sys2Proof.Machine.execTrttL3Pointer addr s
  | .trttL3Null => Sys2Proof.Machine.execTrttL3Null s
  | .trttL3Invalid => Sys2Proof.Machine.execTrttL3Invalid s
  | .trttL3NullAndInvalid => Sys2Proof.Machine.execTrttL3NullAndInvalid s
  | .trttL2Pointer addr => Sys2Proof.Machine.execTrttL2Pointer addr s
  | .trttL2Null => Sys2Proof.Machine.execTrttL2Null s
  | .trttL2Invalid => Sys2Proof.Machine.execTrttL2Invalid s
  | .trttL2NullAndInvalid => Sys2Proof.Machine.execTrttL2NullAndInvalid s
  | .trttL1 addr => Sys2Proof.Machine.execTrttL1 addr s
  | .read agent ctx gva n => Sys2Proof.Machine.execRead agent ctx gva n s
  | .write agent ctx gva n value => Sys2Proof.Machine.execWrite agent ctx gva n value s
  | .mmioWrite reg ctx value => Sys2Proof.Machine.execMmioWrite reg ctx value s
  | .mmioRead reg ctx => Sys2Proof.Machine.execMmioRead reg ctx s
  | .ggttUpdate index entry => Sys2Proof.Machine.execGgttUpdate index entry s
  | .miUpdateGtt updates => Sys2Proof.Machine.execMiUpdateGtt updates s
  | .tableWrite space pa n value => Sys2Proof.Machine.execTableWrite space pa n value s
  | .ctxLoad ctx image => Sys2Proof.Machine.execCtxLoad ctx image s
  | .faultResponse request ok => Sys2Proof.Machine.execFaultResponse request ok s
  | .ackInvalidTile => Sys2Proof.Machine.execAckInvalidTile s
  | .reset => Sys2Proof.Machine.execReset s

end Sys2Proof.Machine
end

