-- ==== Sys2Proof/Machine/Step.lean ====
section
/-! DEFINITION. One step of the machine, and the state in which a given entry word is the next one fetched. -/

namespace Sys2Proof.Machine

/-- One step: the walk in progress executes the entry it fetches; else the next operation or event of the schedule happens; with
nothing scheduled the machine stays as it is (log 5). -/
def step (s : State) : Host.Outcome State Fault Refusal :=
  match s.walk with
  | some wk => exec (fetch wk s).1 (fetch wk s).2
  | none =>
    match s.schedule with
    | [] => .next s
    | .op i :: rest => exec i { s with schedule := rest }
    | .event name c :: rest => .next (State.platformEvent { s with schedule := rest } name c)

/-- The physical address of the entry a table word is placed at (log 5): global page 0's entry, or the start of System memory. -/
def tableAddr (s : State) : Pos → Word64
  | .ggtt => ggttEntry s.cfg.ggttBase 0
  | .pml4 | .pdp | .pd | .pt4k | .pt64k | .trL3 | .trL2 | .trL1 => 0

/-- The walk that reads a table word: a READ of one byte at address 0 of GLOBAL, or of a process context's TR-VA (log 5). -/
def tableWalk (s : State) (pos : Pos) : Walk :=
  let c : CtxId := match pos with
    | .ggtt => .global
    | .pml4 | .pdp | .pd | .pt4k | .pt64k | .trL3 | .trL2 | .trL1 => .proc 0
  let q : Request := { id := s.nextReq, agent := .render, ctx := c, gva := 0, n := 1, value := none }
  { Walk.start q (s.ctx c).tr with pos := pos, space := .system, pa := tableAddr s pos }

/-- `s` with the table word's bytes in memory and a walk open that fetches them next (log 5). -/
def State.withFetchWord (s : State) (nbits w : Nat) : State :=
  match tableEntry nbits w with
  | none => s
  | some (pos, bytes) =>
    { s with mem := s.mem.putBytes .system (tableAddr s pos).toNat bytes, walk := some (tableWalk s pos) }

end Sys2Proof.Machine
end

