-- ==== Sys2Proof/Safety.lean ====
section
/-! DEFINITION. The terms claims use: the invariant of the machine's data, the quiescence premise (20_memory R95 b), what a part
of the machine leaves unchanged, and a run without a stop. -/

namespace Sys2Proof.Machine

/-! ## The invariant of the data -/

/-- The reserved bits of a register copy are zero (10_state R42). -/
def reservedZero (r : TrRegs) : Bool :=
  r.l3ptr &&& l3ptrMask == r.l3ptr && r.trvadr &&& trvadrMask == r.trvadr && r.trtte &&& trtteMask == r.trtte

/-- The hidden state of a context is in form: a PML4 cache has 512 entries (43_ppgtt R240), old register copies keep their reserved
bits zero, and the last invalidation event is not in the future. -/
def Caches.inv (h : Caches) (clock : Nat) : Bool :=
  (match h.pml4c with
   | some c => c.entries.length == 512
   | none => true) &&
  h.trOld.all reservedZero && decide (h.since ≤ clock)

/-- A context is in form. -/
def Ctx.inv (x : Ctx) (clock : Nat) : Bool := reservedZero x.tr && x.caches.inv clock

/-- The data of the machine is in form: both memories and every keyed list canonical, every context in form, no write, event or breach in
the future, every halted request recorded under its own number, none numbered ahead of the next request. -/
def State.inv (s : State) : Bool :=
  s.mem.wf && assocWf s.ctxs && assocWf s.halted && s.globalCaches.inv s.clock &&
  s.ctxs.all (fun kc => kc.2.inv s.clock) && decide (s.breach ≤ s.clock) && decide (s.flushedAt ≤ s.clock) &&
  s.hist.all (fun w => decide (w.time ≤ s.clock)) &&
  s.halted.all (fun qh => decide (qh.1 < s.nextReq) && qh.2.req.id == qh.1) &&
  (match s.walk with
   | some wk => decide (wk.req.id < s.nextReq)
   | none => true)

/-! ## The quiescence premise -/

/-- A context is quiescent: no write since its last invalidation event touched what a cached translation of any context was read from,
and no old register value is in use (20_memory R95 b, 70_reset_and_hazards R306). -/
def State.quiet (s : State) (c : CtxId) : Prop :=
  s.broken c = false ∧ (s.ctx c).caches.trOld = []

/-- Nothing cached: right after an invalidation event of the context (20_memory R99). -/
def State.cold (s : State) (c : CtxId) : Prop :=
  (s.ctx c).caches.tlb = [] ∧ (s.ctx c).caches.trTlb = [] ∧ (s.ctx c).caches.pml4c = none ∧ s.quiet c

/-! ## Frames -/

/-- Every byte of both memories reads as before. -/
def sameMemory (s t : State) : Prop := ∀ sp a, t.byteAt sp a = s.byteAt sp a

/-- Every byte of both memories outside `n` bytes at `a` of space `sp` reads as before. -/
def sameMemoryOutside (s t : State) (sp : Space) (a n : Nat) : Prop :=
  ∀ sp' b, ¬ (sp' = sp ∧ a ≤ b ∧ b < a + n) → t.byteAt sp' b = s.byteAt sp' b

/-- The `n` bytes at `a` hold the value `v`, lowest address first (20_memory R71). -/
def holds (t : State) (sp : Space) (a n v : Nat) : Prop :=
  ∀ i, i < n → t.byteAt sp (a + i) = BitVec.ofNat 8 (v / 256 ^ i)

/-- The registers and the per-context values are unchanged: the configuration, TRBYPASS, PGTBL_CTL2 and, of every context, its
kind, PML4 pointer, NESTE, WPE, loaded mark and TR-TT registers. -/
def sameRegisters (s t : State) : Prop :=
  t.cfg = s.cfg ∧ t.trbypass = s.trbypass ∧ t.pgtblCtl2 = s.pgtblCtl2 ∧
  ∀ c, (t.ctx c).kind = (s.ctx c).kind ∧ (t.ctx c).pml4 = (s.ctx c).pml4 ∧ (t.ctx c).neste = (s.ctx c).neste ∧
    (t.ctx c).wpe = (s.ctx c).wpe ∧ (t.ctx c).loaded = (s.ctx c).loaded ∧ (t.ctx c).tr = (s.ctx c).tr

/-- The exception state is unchanged: halted requests, needs_reset and the pending interrupt. -/
def samePending (s t : State) : Prop :=
  t.halted = s.halted ∧ t.needsReset = s.needsReset ∧ t.irqInvalidTile = s.irqInvalidTile

/-- The Null-tile counter is unchanged. -/
def sameCounter (s t : State) : Prop := t.nullcnt = s.nullcnt

/-- What the walker has cached of every context but one is unchanged. -/
def sameOtherContexts (s t : State) (c : CtxId) : Prop := ∀ c', c' ≠ c → t.ctx c' = s.ctx c'

/-- Memory, registers, per-context values, exception state and counter are all unchanged. -/
def unchanged (s t : State) : Prop := sameMemory s t ∧ sameRegisters s t ∧ samePending s t ∧ sameCounter s t

/-! ## Runs -/

/-- `k` steps end in a state: no step faults and none is refused (93_implementation_defined section 1). -/
def runsTo (k : Nat) (s t : State) : Prop := Host.Core.run Sys2Proof.core k s = .next t

/-- A state from which `k` steps neither fault nor are refused. -/
def safeFor (k : Nat) (s : State) : Prop := ∃ t, runsTo k s t

/-! ## Software duties of TR-TT (70_reset_and_hazards R300) -/

/-- A context's registers are programmed as R300 asks: virtual tables, enabled, detection on, Null and Invalid values different. -/
def trProgrammed (r : TrRegs) : Prop :=
  trVirtual r = true ∧ trEnabled r = true ∧ trvamv r = 15 ∧ r.nulldet ≠ r.invdet

end Sys2Proof.Machine
end

