-- ==== Sys2Proof/Rules.lean ====
section
/-! DEFINITION. The spec's own pseudocode of translation as functions of memory, apart from the walker: 42_ggtt R201, 43_ppgtt R218,
41_trtt R175 and R176, 40_request_pipeline R151; what a request does given the outcome (R152, R153); and when cached translations
agree with the tables. Claims compare the machine with these. -/

namespace Sys2Proof.Machine

/-- The outcome of a translation (00_scope R10), the memory type left out: no rule reads it (43_ppgtt R238). -/
inductive Translation where
  | phys (space : Space) (pa : Word64) (w : Bool)
  | nullPage (w : Bool)
  | nullTile
  | invalidTile
  | notPresent (level : Level) (a : Word64)
  | refused (why : Refusal)
  /-- An entry on the way is being written piecewise: its value is a draw, and the rules say no more (20_memory R79). -/
  | unsettled
  deriving DecidableEq, Repr

/-! ## Pages -/

/-- ADDR [HAW-1:12] of an entry: the table or page frame it names. -/
def frameOf (p : Params) (e : Word64) : BitVec 52 := (belowHaw p e).extractLsb' 12 52

/-- The 8-byte entry `k` of a table in System memory, at SL(ctx, B[63:12] : k : 000) (30_encoding R125, 43_ppgtt R239). -/
def ruleEntry (s : State) (c : CtxId) (table : BitVec 52) (k : BitVec 9) : Except Translation Word64 :=
  match s.sl c (table ++ k ++ (0 : BitVec 3)) with
  | none => .error (.refused .nestedTranslationUnmodelled)
  | some a =>
    if s.halfWritten .system a.toNat 8 then .error .unsettled else .ok (BitVec.ofNat 64 (s.physRead .system a 8))

/-- PML4Entry(ctx, k) (43_ppgtt R240): from the cache if it is filled, else from memory. -/
def rulePml4 (s : State) (c : CtxId) (k : BitVec 9) : Except Translation Word64 :=
  match (s.ctx c).caches.pml4c with
  | some x => .ok (x.entries.getD k.toNat 0)
  | none => ruleEntry s c ((s.ctx c).pml4.extractLsb' 12 52) k

/-- Leaf(ctx, e, a, w, lm) (43_ppgtt R218). -/
def ruleLeaf (s : State) (c : CtxId) (e a : Word64) (w lm : Bool) : Translation :=
  if e.getLsbD 9 then .nullPage w
  else match s.sl c a with
    | none => .refused .nestedTranslationUnmodelled
    | some pa => .phys (if s.cfg.hasLocalMemory && lm then .device else .system) pa w

/-- The page-table step of PPGTT_Walk: 64 KB pages where bit 11 of the PDE is set, else 4 KB pages (43_ppgtt R222, R223). -/
def rulePt (s : State) (c : CtxId) (e2 g : Word64) (w : Bool) : Translation :=
  if e2.getLsbD 11 then
    match ruleEntry s c (frameOf s.cfg e2) (g.extractLsb' 16 5 ++ (0 : BitVec 4)) with
    | .error o => o
    | .ok e1 =>
      if e1.getLsbD 0 then
        ruleLeaf s c e1 ((belowHaw s.cfg e1).extractLsb' 16 48 ++ g.extractLsb' 0 16) (w && e1.getLsbD 1) (e1.getLsbD 11)
      else .notPresent .pt (va48 g)
  else
    match ruleEntry s c (frameOf s.cfg e2) (g.extractLsb' 12 9) with
    | .error o => o
    | .ok e1 =>
      if e1.getLsbD 0 then ruleLeaf s c e1 (frameOf s.cfg e1 ++ g.extractLsb' 0 12) (w && e1.getLsbD 1) false
      else .notPresent .pt (va48 g)

/-- The page-directory step of PPGTT_Walk (43_ppgtt R221, R224). -/
def rulePd (s : State) (c : CtxId) (e3 g : Word64) (w : Bool) : Translation :=
  match ruleEntry s c (frameOf s.cfg e3) (g.extractLsb' 21 9) with
  | .error o => o
  | .ok e2 =>
    if e2.getLsbD 0 then
      if isLeaf s.cfg .pd e2 then
        ruleLeaf s c e2 ((belowHaw s.cfg e2).extractLsb' 21 43 ++ g.extractLsb' 0 21) (w && e2.getLsbD 1) (e2.getLsbD 11)
      else rulePt s c e2 g (w && e2.getLsbD 1)
    else .notPresent .pd (va48 g)

/-- The page-directory-pointer step of PPGTT_Walk (43_ppgtt R220, R225). -/
def rulePdp (s : State) (c : CtxId) (e4 g : Word64) (w : Bool) : Translation :=
  match ruleEntry s c (frameOf s.cfg e4) (g.extractLsb' 30 9) with
  | .error o => o
  | .ok e3 =>
    if e3.getLsbD 0 then
      if isLeaf s.cfg .pdp e3 then
        ruleLeaf s c e3 ((belowHaw s.cfg e3).extractLsb' 30 34 ++ g.extractLsb' 0 30) (w && e3.getLsbD 1) (e3.getLsbD 11)
      else rulePd s c e3 g (w && e3.getLsbD 1)
    else .notPresent .pdp (va48 g)

/-- PPGTT_Walk(ctx, g) (43_ppgtt R218). A misaligned PML4 pointer and a missing second level are refused (20_memory R73, 43_ppgtt
R239), in this order where both apply: DESIGN CHOICE (log 29). -/
def rulePpgtt (s : State) (c : CtxId) (g : Word64) : Translation :=
  if (s.ctx c).pml4.extractLsb' 0 12 ≠ 0 then .refused .misalignedTableBase
  else if (s.ctx c).neste && !s.cfg.slSupplied then .refused .nestedTranslationUnmodelled
  else match rulePml4 s c (g.extractLsb' 39 9) with
    | .error o => o
    | .ok e4 => if e4.getLsbD 0 then rulePdp s c e4 g (e4.getLsbD 1) else .notPresent .pml4 (va48 g)

/-- GGTT_Translate(g) (42_ggtt R201), in a configuration whose GGTT is admitted (20_memory R73, 30_encoding R131). -/
def ruleGgtt (s : State) (g : Word64) : Translation :=
  if s.cfg.ggttBase.extractLsb' 0 12 ≠ 0 then .refused .misalignedTableBase
  else if ¬ s.cfg.ggttBase.toNat + 2 ^ 23 ≤ 2 ^ s.cfg.haw.bits then .refused .ggttBeyondMemory
  else
    let e := BitVec.ofNat 64 (s.physRead .system (s.cfg.ggttBase + (g.extractLsb' 12 20).setWidth 64 <<< 3) 8)
    if e.getLsbD 0 then .phys .system (frameOf s.cfg e ++ g.extractLsb' 0 12) true else .notPresent .ggtt (va32 g)

/-! ## Tiles -/

/-- TRTableRead(ctx, a, n) (41_trtt R176). -/
def ruleTableRead (s : State) (c : CtxId) (r : TrRegs) (a : Word64) (n : Nat) : Except Translation Nat :=
  match trDetect r a with
  | none => .error (.refused .trvamvUnsupported)
  | some true => .error (.refused .trttTableInTrva)
  | some false =>
    match rulePpgtt s c a with
    | .phys sp pa _ => if s.halfWritten sp pa.toNat n then .error .unsettled else .ok (s.physRead sp pa n)
    | .nullPage _ => .error (.refused .trttTableInNullPage)
    | .notPresent l b => .error (.notPresent l b)
    | .refused why => .error (.refused why)
    | .nullTile => .error .nullTile
    | .invalidTile => .error .invalidTile
    | .unsettled => .error .unsettled

/-- The flags of an L3 or L2 entry (41_trtt R178): `none` is a pointer. Dual Context refuses a pointer with bit 47 (R189). -/
def ruleFlags (p : Params) (e : Nat) : Except Translation (Option TileOut) :=
  match e.testBit 1, e.testBit 0 with
  | true, true => .error (.refused .trttNullAndInvalid)
  | false, true => .ok (some .invalid)
  | true, false => .ok (some .null)
  | false, false => if p.dualContext && e.testBit 47 then .error (.refused .trttDualContextBit47) else .ok none

/-- The L1 step of TRTT_Walk (41_trtt R174, R179, R189). -/
def ruleL1 (s : State) (c : CtxId) (r : TrRegs) (e2 : Nat) (gva : Word64) : Except Translation TileOut :=
  match ruleTableRead s c r
      ((0 : BitVec 16) ++ (BitVec.ofNat 64 e2).extractLsb' 12 36 ++ gva.extractLsb' 16 10 ++ (0 : BitVec 2)) 4 with
  | .error o => .error o
  | .ok e1 =>
    if BitVec.ofNat 32 e1 = r.invdet then .ok .invalid
    else if BitVec.ofNat 32 e1 = r.nulldet then .ok .null
    else if s.cfg.dualContext && e1.testBit 31 then .error (.refused .trttDualContextBit47)
    else .ok (.mapped (BitVec.ofNat 32 e1))

/-- The L2 step of TRTT_Walk (41_trtt R173). -/
def ruleL2 (s : State) (c : CtxId) (r : TrRegs) (e3 : Nat) (gva : Word64) : Except Translation TileOut :=
  match ruleTableRead s c r
      ((0 : BitVec 16) ++ (BitVec.ofNat 64 e3).extractLsb' 12 36 ++ gva.extractLsb' 26 9 ++ (0 : BitVec 3)) 8 with
  | .error o => .error o
  | .ok e2 =>
    match ruleFlags s.cfg e2 with
    | .error o => .error o
    | .ok (some o) => .ok o
    | .ok none => ruleL1 s c r e2 gva

/-- TRTT_Walk(ctx, gva) (41_trtt R175) under the register copy `r`. -/
def ruleTrtt (s : State) (c : CtxId) (r : TrRegs) (gva : Word64) : Except Translation TileOut :=
  if ¬ r.trtte.getLsbD 1 then .error (.refused .trttGpaMode)
  else if r.nulldet = r.invdet then .error (.refused .trttNullEqInvalid)
  else match ruleTableRead s c r
      ((0 : BitVec 16) ++ r.l3ptr.extractLsb' 16 32 ++ (0 : BitVec 4) ++ gva.extractLsb' 35 9 ++ (0 : BitVec 3)) 8 with
  | .error o => .error o
  | .ok e3 =>
    match ruleFlags s.cfg e3 with
    | .error o => .error o
    | .ok (some o) => .ok o
    | .ok none => ruleL2 s c r e3 gva

/-! ## A request -/

/-- Translate(agent, ctx, gva) (40_request_pipeline R151). -/
def ruleTranslate (s : State) (agent : Engine) (c : CtxId) (gva : Word64) : Translation :=
  let x := s.ctx c
  let active := trActive s.cfg s.trbypass x.tr
  match x.kind with
  | .ggtt => if c ≠ .global ∧ active then .refused .trttContext else ruleGgtt s gva
  | .advPpgtt64 => .refused .undefinedPpgttMode
  | .ppgtt32 => .refused .undefinedPpgttMode
  | .ppgtt48 =>
    if active then
      match trDetect x.tr gva with
      | none => .refused .trvamvUnsupported
      | some false => rulePpgtt s c gva
      | some true =>
        if agent ≠ .render ∧ agent ≠ .posh then .refused .trttEngine
        else match ruleTrtt s c x.tr gva with
          | .error o => o
          | .ok .null => .nullTile
          | .ok .invalid => .invalidTile
          | .ok (.mapped e) => rulePpgtt s c ((0 : BitVec 16) ++ e ++ gva.extractLsb' 0 16)
    else rulePpgtt s c gva

/-- A request is admitted (40_request_pipeline R156). -/
def admitted (s : State) (c : CtxId) (gva : Word64) (n : Nat) : Prop :=
  upperOk s.cfg (s.ctx c).kind gva = true ∧ 1 ≤ n ∧ (gva.extractLsb' 0 12).toNat + n ≤ 4096 ∧ shapeOk s.cfg gva n = true ∧
    s.needsReset = false

/-- The request halts on a fault (60_exceptions R272): it is recorded with its cause, completes nothing and changes nothing else. -/
def halts (s : State) (q : Request) (c : Cause) (o : Out) : Prop :=
  ∃ t, o = .next t ∧ t.walk = none ∧ t.result = .halted q.id c ∧
    (∃ h, assocGet t.halted q.id = some h ∧ h.req = q ∧ h.cause = c) ∧
    (∀ k, k ≠ q.id → assocGet t.halted k = assocGet s.halted k) ∧
    sameMemory s t ∧ sameRegisters s t ∧ t.needsReset = s.needsReset ∧ t.irqInvalidTile = s.irqInvalidTile ∧ sameCounter s t

/-- The completion of a request without a memory access: zeros and the null indicator, or a dropped write (40_request_pipeline R154). -/
def zeroCompletion (q : Request) : Result :=
  match q.value with
  | none => .read q.id 0 true
  | some _ => .write q.id

/-- The request is performed as 40_request_pipeline R152 and R153 say for the translation's outcome, starting from `s`. Nothing is said
where the walk meets an entry that is being written piecewise. -/
def served (s : State) (q : Request) (o : Out) : Translation → Prop
  | .phys sp pa w =>
    match q.value with
    | none => ∃ t, o = .next t ∧ t.walk = none ∧ t.result = .read q.id (s.physRead sp pa q.n) false ∧ unchanged s t
    | some v =>
      if w = false then halts s q (.writeDenied q.gva) o
      else if inGgtt s.cfg sp pa.toNat q.n then o = .refused .ggttDirectWrite
      else ∃ t, o = .next t ∧ t.walk = none ∧ t.result = .write q.id ∧ holds t sp pa.toNat q.n v ∧
        sameMemoryOutside s t sp pa.toNat q.n ∧ sameRegisters s t ∧ samePending s t ∧ sameCounter s t
  | .nullPage w =>
    if q.value.isSome ∧ w = false then halts s q (.writeDenied q.gva) o
    else ∃ t, o = .next t ∧ t.walk = none ∧ t.result = zeroCompletion q ∧ unchanged s t
  | .nullTile => ∃ t, o = .next t ∧ t.walk = none ∧ t.result = zeroCompletion q ∧ sameMemory s t ∧ sameRegisters s t ∧ samePending s t
  | .invalidTile =>
    ∃ t, o = .next t ∧ t.walk = none ∧ t.result = zeroCompletion q ∧ sameMemory s t ∧ sameRegisters s t ∧ sameCounter s t ∧
      t.irqInvalidTile = true ∧ t.halted = s.halted ∧ t.needsReset = s.needsReset
  | .notPresent l a => halts s q (.notPresent l a) o
  | .refused why => o = .refused why
  | .unsettled => True

/-! ## Cached translations that agree with the tables -/

/-- What a cached translation says of an address in its page, the second level on or not when it was completed. -/
def Mapping.at (m : Mapping) (s : State) (c : CtxId) (global nested : Bool) (z : PageSize) (va : Word64) : Translation :=
  match m with
  | .null w => .nullPage w
  | .page sp base _ w =>
    if global then .phys sp (pageAddr .k4 base va) w
    else match s.slAs nested c (pageAddr z base va) with
      | none => .refused .nestedTranslationUnmodelled
      | some pa => .phys sp pa w

/-- Every element of a context's TLB says what the tables say (20_memory R99). -/
def tlbAgrees (s : State) (c : CtxId) : Prop :=
  ∀ e ∈ (s.ctx c).caches.tlb, ∀ va, pageBase e.size va = e.vbase →
    (if e.global then ruleGgtt s va else rulePpgtt s c va) = e.out.at s c e.global e.nested e.size va

/-- Every element of a context's TR TLB says what the tables and the registers say. -/
def trTlbAgrees (s : State) (c : CtxId) : Prop :=
  ∀ e ∈ (s.ctx c).caches.trTlb, ∀ gva, tileOf gva = e.tile → ruleTrtt s c (s.ctx c).tr gva = .ok e.out

/-- The quiescence premise holds of a context (20_memory R95 b) and what it has cached agrees with the tables. -/
def coherent (s : State) (c : CtxId) : Prop := s.quiet c ∧ tlbAgrees s c ∧ trTlbAgrees s c

/-! ## Leaf entries -/

/-- The position, the page address before the second level, the space and the flags of a PPGTT leaf entry (30_encoding R126, 43_ppgtt
R237). -/
def leafView (p : Params) (va : Word64) : Instr → Option (Pos × Word64 × Space × LeafBits)
  | .pte4kb a f => some (.pt4k, (a ++ va.extractLsb' 0 12).setWidth 64, .system, f)
  | .pte64kb a lm f =>
    some (.pt64k, (a ++ va.extractLsb' 0 16).setWidth 64, if p.hasLocalMemory && lm then .device else .system, f)
  | .pde2mb a lm f => some (.pd, (a ++ va.extractLsb' 0 21).setWidth 64, if p.hasLocalMemory && lm then .device else .system, f)
  | .pdpe1gb a lm f => some (.pdp, (a ++ va.extractLsb' 0 30).setWidth 64, if p.hasLocalMemory && lm then .device else .system, f)
  | _ => none

/-- The position, the next position, the address of the next entry before the second level, and the R/W bit of a PPGTT pointer entry
(30_encoding R125, 43_ppgtt R219 to R221). -/
def pointerView (va : Word64) : Instr → Option (Pos × Pos × Word64 × Bool)
  | .pml4e a rw => some (.pml4, .pdp, (a ++ va.extractLsb' 30 9 ++ (0 : BitVec 3)).setWidth 64, rw)
  | .pdpePd a rw => some (.pdp, .pd, (a ++ va.extractLsb' 21 9 ++ (0 : BitVec 3)).setWidth 64, rw)
  | .pdePt a false rw => some (.pd, .pt4k, (a ++ va.extractLsb' 12 9 ++ (0 : BitVec 3)).setWidth 64, rw)
  | .pdePt a true rw => some (.pd, .pt64k, (a ++ va.extractLsb' 16 5 ++ (0 : BitVec 7)).setWidth 64, rw)
  | _ => none

/-- The position, the level and the address of the entry read next of a TR-TT pointer entry (41_trtt R172 to R174). -/
def trPointerView (gva : Word64) : Instr → Option (Pos × TrLevel × Word64 × Bool)
  | .trttL3Pointer a =>
    some (.trL3, .l2, ((a ++ gva.extractLsb' 26 9 ++ (0 : BitVec 3)).setWidth 64), a.getLsbD 35)
  | .trttL2Pointer a =>
    some (.trL2, .l1, ((a ++ gva.extractLsb' 16 10 ++ (0 : BitVec 2)).setWidth 64), a.getLsbD 35)
  | _ => none

/-- What a TR-TT entry says of its tile, at its position (41_trtt R178, R179): `none` for a pointer, both flags, or no TR-TT entry. -/
def tileView (r : TrRegs) : Instr → Option (Pos × TileOut)
  | .trttL3Null => some (.trL3, .null)
  | .trttL3Invalid => some (.trL3, .invalid)
  | .trttL2Null => some (.trL2, .null)
  | .trttL2Invalid => some (.trL2, .invalid)
  | .trttL1 e => some (.trL1, if e = r.invdet then .invalid else if e = r.nulldet then .null else .mapped e)
  | _ => none

/-- The walk in progress reads the entry at a position, and has met no non-recoverable fault. -/
def reading (s : State) (pos : Pos) (wk : Walk) : Prop := s.walk = some wk ∧ wk.pos = pos ∧ wk.spurious = false

/-- No element of a context's TLB matches a per-process address: the tables are walked (20_memory R99). -/
def tlbMisses (s : State) (c : CtxId) (va : Word64) : Prop :=
  ∀ e ∈ (s.ctx c).caches.tlb, ¬ (e.global = false ∧ e.vbase = pageBase e.size va)

/-- A PPGTT walk of a context can begin: its PML4 pointer is aligned and exists, and the second level is there (20_memory R73, R84,
43_ppgtt R239). -/
def walkable (s : State) (c : CtxId) : Prop :=
  (s.ctx c).pml4.extractLsb' 0 12 = 0 ∧ (s.ctx c).pml4.toNat + 4096 ≤ 2 ^ s.cfg.haw.bits ∧
    ((s.ctx c).neste = false ∨ s.cfg.slSupplied = true)

/-! ## Ignored bits -/

/-- The bits of an entry word that its format names, at a position (30_encoding R114 to R124): all others are Ignored. -/
def namedBits (p : Params) (pos : Pos) (w : Word64) : Word64 :=
  let addr (lo : Nat) : Word64 := belowHaw p (BitVec.allOnes 64) >>> lo <<< lo
  match pos with
  | .trL1 => 0xFFFFFFFF#64
  | .trL3 | .trL2 => if w.getLsbD 0 || w.getLsbD 1 then 0x3#64 else 0x0000FFFFFFFFF003#64
  | .ggtt => if w.getLsbD 0 then addr 12 ||| 0x1#64 else 0x1#64
  | .pml4 => if w.getLsbD 0 then addr 12 ||| 0x3#64 else 0x1#64
  | .pdp =>
    if !w.getLsbD 0 then 0x1#64
    else if isLeaf p .pdp w then addr 30 ||| 0xA9B#64 else addr 12 ||| 0x3#64
  | .pd =>
    if !w.getLsbD 0 then 0x1#64
    else if isLeaf p .pd w then addr 21 ||| 0xA9B#64 else addr 12 ||| 0x803#64
  | .pt64k => if w.getLsbD 0 then addr 16 ||| 0xA9B#64 else 0x1#64
  | .pt4k => if w.getLsbD 0 then addr 12 ||| 0x29B#64 else 0x1#64

/-- The bits of a register DWord that are fields, the others reserved (10_state R31 to R36). -/
def fieldBits : RegName → Word32
  | .trvattl3ptrDw0 => 0xFFFF0000#32
  | .trvattl3ptrDw1 => 0x0000FFFF#32
  | .trnulldet | .trinvdet => 0xFFFFFFFF#32
  | .trvadr => 0x000000FF#32
  | .trtte => 0x00000003#32
  | .trbypass => 0x00000001#32
  | .pgtblCtl | .pgtblCtl2 | .nullcnt | .offset _ => 0

end Sys2Proof.Machine
end

