-- ==== Sys2Proof/WellFormed.lean ====
section
/-! DEFINITION. Which terms of Instr stand for something the spec has: an entry whose fields fit its format at HAW, an operation
whose operands are in range. -/

namespace Sys2Proof

/-- A frame field of bits 45:`lo` stays below HAW (30_encoding R135: bits at and above HAW are Ignored). -/
def fitsHaw (p : Params) (lo : Nat) (field : Nat) : Bool := decide (field * 2 ^ lo < 2 ^ p.haw.bits)

/-- The format's own select condition on IS_LEAF holds of its word (30_encoding R128). -/
def leafIs (p : Params) (l : Level) (want : Bool) (i : Instr) : Bool :=
  match encodeWord i with
  | some w => isLeaf p l w == want
  | none => false

/-- Whether a register belongs to a context (10_state R44). -/
def perContext : RegName → Bool
  | .trvattl3ptrDw0 | .trvattl3ptrDw1 | .trnulldet | .trinvdet | .trvadr | .trtte => true
  | .trbypass | .pgtblCtl | .pgtblCtl2 | .nullcnt | .offset _ => false

/-- GLOBAL has no TR-TT registers (41_trtt R187). -/
def namesRegister (r : RegName) (c : CtxId) : Bool := !(perContext r && c == .global)

/-- GLOBAL is a context of kind GGTT without TR-TT registers (40_request_pipeline R157). -/
def imageFits (p : Params) (c : CtxId) (m : CtxImage) : Bool :=
  decide (m.pml4.toNat < 2 ^ p.haw.bits) && (c != .global || (m.kind == .ggtt && m.regs.isNone))

/-- The size operand of a request (the table: 1..4096 bytes, not crossing 4 KB; 20_memory R76), within the platform's limits (00_scope
R6). -/
def sizeFits (p : Params) (gva : Word64) (n : Nat) : Bool :=
  decide (1 ≤ n) && decide ((gva.extractLsb' 0 12).toNat + n ≤ 4096) && decide (n ≤ p.maxRequestBytes) &&
    gva.toNat % 2 ^ p.requestAlign == 0

/-- The agent operand is one of the platform's ENGINES (00_scope R6). -/
def engineFits (p : Params) (e : Engine) : Bool :=
  match e, p.engines with
  | .other n, .listed l => l.contains n
  | _, _ => true

/-- The well-formed instructions of a configuration. An MI_UPDATE_GTT of no update is one: DESIGN CHOICE (log 35). -/
def wellFormed (p : Params) (i : Instr) : Bool :=
  match i with
  | .ggttPte a _ => fitsHaw p 12 a.toNat
  | .pml4e a _ => fitsHaw p 12 a.toNat
  | .pdpePd a rw => fitsHaw p 12 a.toNat && leafIs p .pdp false (.pdpePd a rw)
  | .pdpe1gb a lm f => fitsHaw p 30 a.toNat && leafIs p .pdp true (.pdpe1gb a lm f)
  | .pdePt a s rw => fitsHaw p 12 a.toNat && leafIs p .pd false (.pdePt a s rw)
  | .pde2mb a lm f => fitsHaw p 21 a.toNat && leafIs p .pd true (.pde2mb a lm f)
  | .pte64kb a _ _ => fitsHaw p 16 a.toNat
  | .pte4kb a _ => fitsHaw p 12 a.toNat
  | .notPresent => true
  | .trttL3Pointer _ | .trttL3Null | .trttL3Invalid | .trttL3NullAndInvalid => true
  | .trttL2Pointer _ | .trttL2Null | .trttL2Invalid | .trttL2NullAndInvalid => true
  | .trttL1 _ => true
  | .read e _ gva n => engineFits p e && sizeFits p gva n
  | .write e _ gva n v => engineFits p e && sizeFits p gva n && decide (v < 2 ^ (8 * n))
  | .mmioWrite r c _ => namesRegister r c
  | .mmioRead r c => namesRegister r c
  | .ggttUpdate _ _ => true
  | .miUpdateGtt _ => true
  | .tableWrite sp pa n v =>
    decide (pa.toNat + n ≤ 2 ^ p.haw.bits) && decide (v < 2 ^ (8 * n)) && (sp == .system || p.hasLocalMemory)
  | .ctxLoad c m => imageFits p c m
  | .faultResponse _ _ => true
  | .ackInvalidTile => true
  | .reset => true

end Sys2Proof
end

