-- ==== Sys2Proof/Certificates/Slice0/Obligations.lean ====
section
/-! DEFINITION. The statements for the provers. Each docstring names the rules of spec/ it rests on, and the log where a choice of the
model enters. -/

open Sys2Proof Sys2Proof.Machine

/-! ## The step, the decoder, the encoder -/

/-- A STEP RUNS THE FETCHED ENTRY (20_memory R78, R79, 30_encoding R128, 43_ppgtt R240). With a walk in progress that has met no
non-recoverable fault, inside the quiescence premise and at an entry that nobody is writing piecewise, the bytes at the walk's address
decode at the walk's position, with nothing left over, and the step is `exec` of that entry; a PML4 entry is the cached one where the PML4
is cached; after a non-recoverable fault it is the incorrect value. With no walk, the step performs the next scheduled operation, and
nothing scheduled changes nothing (model's choice, log 5). -/
def Obligations.StepRunsTheFetchedEntry : Prop :=
  ∀ (s : State) (i : Instr),
    (∀ wk, s.walk = some wk → wk.forced = none → (wk.pos = .pml4 → (s.ctx wk.req.ctx).caches.pml4c = none) →
      (wk.pos = .ggtt ∨
        s.broken wk.req.ctx = false ∧ s.halfWritten wk.space wk.pa.toNat (entryBytes wk.pos) = false) →
      decode s.cfg wk.pos (s.mem.bytes s.epoch wk.space wk.pa.toNat (entryBytes wk.pos)) = .ok (i, []) →
      step s = exec i s) ∧
    (∀ wk x, s.walk = some wk → wk.forced = none → wk.pos = .pml4 → (s.ctx wk.req.ctx).caches.pml4c = some x →
      step s = exec (decodeEntry s.cfg .pml4 (x.entries.getD (idx4 wk.va).toNat 0)) s) ∧
    (∀ wk v, s.walk = some wk → wk.forced = some v → step s = exec (decodeEntry s.cfg wk.pos v) s) ∧
    (∀ rest, s.walk = none → s.schedule = .op i :: rest → step s = exec i { s with schedule := rest }) ∧
    (s.walk = none → s.schedule = [] → step s = .next s)

/-- Words of 95_test_vectors (IMG-PP, IMG-TR, V-G, V-B) decode to the entries they stand for. -/
def Obligations.VectorWordsDecode : Prop :=
  decodeEntry Params.default .ggtt 0x0000000034567001#64 = .ggttPte 0x34567#34 0 ∧
  decodeEntry Params.default .ggtt 0x0000000034568000#64 = .notPresent ∧
  decodeEntry Params.default .pml4 0x0000000000101003#64 = .pml4e 0x101#34 true ∧
  decodeEntry Params.default .pdp 0x0000000000105001#64 = .pdpePd 0x105#34 false ∧
  decodeEntry Params.default .pd 0x0000000000104803#64 = .pdePt 0x104#34 true true ∧
  decodeEntry Params.default .pt4k 0xFFFFFF8000ABF003#64 = .pte4kb 0xABF#34 ⟨false, false, false, false, true⟩ ∧
  decodeEntry Params.default .trL3 0x0000700000000000#64 = .trttL3Pointer 0x700000000#36 ∧
  decodeEntry Params.default .trL2 0x0000000000000002#64 = .trttL2Null ∧
  decode Params.default .trL1 [0x20#8, 0x40#8, 0x00#8, 0x00#8] = .ok (.trttL1 0x4020#32, [])

/-- DECODE AND ENCODE AGREE (30_encoding R114 to R124, R128, R129): at every position that reads a well-formed entry's format, the entry's
bytes decode to it again, whatever bytes follow. -/
def Obligations.DecodeInvertsEncode : Prop :=
  ∀ (p : Params) (i : Instr) (pos : Pos) (rest : List Byte),
    wellFormed p i = true → pos ∈ positions i → decode p pos (encode i ++ rest) = .ok (i, rest)

/-- IGNORED BITS (30_encoding R135): two entry words that differ only in bits their format ignores, and on which IS_LEAF agrees, do the same
in every state. -/
def Obligations.IgnoredBitsDoNotMatter : Prop :=
  ∀ (s : State) (pos : Pos) (v w : Word64),
    (v ^^^ w) &&& namedBits s.cfg pos v = 0 →
    (pos = .pdp → isLeaf s.cfg .pdp v = isLeaf s.cfg .pdp w) → (pos = .pd → isLeaf s.cfg .pd v = isLeaf s.cfg .pd w) →
    exec (decodeEntry s.cfg pos v) s = exec (decodeEntry s.cfg pos w) s

/-- ADDRESS OF AN ENTRY (30_encoding R125): base plus index times entry size is the concatenation of base, index and zeros. -/
def Obligations.EntryAddressIsAConcatenation : Prop :=
  ∀ (table : BitVec 52) (k : BitVec 9) (k1 : BitVec 10) (base : Word64) (g : BitVec 20),
    entry8 (table ++ (0 : BitVec 12)) k = table ++ k ++ (0 : BitVec 3) ∧
    entry4 (table ++ (0 : BitVec 12)) k1 = table ++ k1 ++ (0 : BitVec 2) ∧
    ggttEntry base g = base + (g.setWidth 64 <<< 3)

/-! ## Invariants of the whole machine -/

/-- The state right after reset is in form. -/
def Obligations.ResetStateIsInForm : Prop := State.reset.inv = true

/-- EVERY STEP KEEPS THE DATA IN FORM: both memories and every keyed list canonical, reserved register bits zero (10_state R42), a cached
PML4 of 512 entries (43_ppgtt R240), no halted request numbered ahead. -/
def Obligations.StepKeepsTheDataInForm : Prop :=
  ∀ s t : State, s.inv = true → step s = .next t → t.inv = true

/-- The configuration is fixed (00_scope R6). -/
def Obligations.ConfigurationNeverChanges : Prop :=
  ∀ (i : Instr) (s t : State), exec i s = .next t → t.cfg = s.cfg

/-- THE WALKER NEVER WRITES MEMORY (20_memory R81): a READ leaves every byte as it is; so does every entry executed for a READ, in a walk
for its data or where no reset is expected afterwards, and so does every pointer entry of the PPGTT or of TR-TT executed for any request
that has met no non-recoverable fault. A non-recoverable fault in a TR-TT table read sets `needs_reset` and leaves memory unconstrained
(00_scope R9, 60_exceptions R277 a; log 23). -/
def Obligations.TranslationLeavesMemoryUnchanged : Prop :=
  (∀ (e : Engine) (c : CtxId) (gva : Word64) (n : Nat) (s t : State), exec (.read e c gva n) s = .next t → t.needsReset = false →
    sameMemory s t) ∧
  (∀ (i : Instr) (s t : State) (wk : Walk), positions i ≠ [] → s.walk = some wk → wk.req.value = none → exec i s = .next t →
    (wk.stage = .data ∨ t.needsReset = false) → sameMemory s t) ∧
  (∀ (i : Instr) (s t : State) (wk : Walk), s.walk = some wk → wk.spurious = false →
    ((pointerView wk.va i).isSome = true ∨ (trPointerView wk.req.gva i).isSome = true) → exec i s = .next t → sameMemory s t)

/-- Registers and per-context values change only by MMIO_WRITE, CTX_LOAD and RESET (10_state R45, 40_request_pipeline R152 "no register
changes"). -/
def Obligations.RegistersChangeOnlyByHostOperations : Prop :=
  ∀ (i : Instr) (s t : State), (∀ r c v, i ≠ .mmioWrite r c v) → (∀ c m, i ≠ .ctxLoad c m) → i ≠ .reset →
    exec i s = .next t → sameRegisters s t

/-- THE GGTT'S MEMORY CHANGES ONLY THROUGH ITS WINDOW (42_ggtt R209): no instruction but GGTT_UPDATE, MI_UPDATE_GTT and RESET changes a byte
of the GGTT's 8 MB, unless a non-recoverable fault has left memory unconstrained (60_exceptions R277 a; log 23). -/
def Obligations.GgttChangesOnlyThroughItsWindow : Prop :=
  ∀ (i : Instr) (s t : State), (∀ k e, i ≠ .ggttUpdate k e) → (∀ l, i ≠ .miUpdateGtt l) → i ≠ .reset →
    exec i s = .next t → t.needsReset = false →
    ∀ b, s.cfg.ggttBase.toNat ≤ b → b < s.cfg.ggttBase.toNat + 2 ^ 23 → t.byteAt .system b = s.byteAt .system b

/-- The Invalid-tile interrupt, once pending, stays pending until ACK_INVALID_TILE or RESET (60_exceptions R270, 70 R290). -/
def Obligations.InterruptStaysPendingUntilAcknowledged : Prop :=
  ∀ (i : Instr) (s t : State), i ≠ .ackInvalidTile → i ≠ .reset → s.irqInvalidTile = true → exec i s = .next t →
    t.irqInvalidTile = true

/-- THE RESET-EXPECTED FLAG (10_state R56): an operation that ends a request with NonRecoverable sets `needs_reset`; no other instruction
clears it; RESET does. -/
def Obligations.NeedsResetIsSetByNonRecoverableAndClearedOnlyByReset : Prop :=
  (∀ (i : Instr) (s t : State) (q : Nat) (d : Option Nat),
    ((∃ e x g n, i = .read e x g n) ∨ (∃ e x g n v, i = .write e x g n v) ∨ (∃ k ok, i = .faultResponse k ok)) →
    exec i s = .next t → t.result = .nonRecoverable q d → t.needsReset = true) ∧
  (∀ (i : Instr) (s t : State), i ≠ .reset → s.needsReset = true → exec i s = .next t → t.needsReset = true) ∧
  (∀ s : State, ∃ t, exec .reset s = .next t ∧ t.needsReset = false)

/-- THE PML4 IS FROZEN AT FIRST USE (70_reset_and_hazards R311). The first walk of a context caches its PML4 (the walk of an admitted READ
where no translation is cached); from then on no instruction but RESET and a CTX_LOAD of that context changes the cached entries, whatever
is stored; and the walker's next PML4 entry is the cached one. -/
def Obligations.Pml4IsFrozenAtFirstUse : Prop :=
  (∀ (s t : State) (e : Engine) (c : CtxId) (gva : Word64) (n : Nat), (s.ctx c).kind = .ppgtt48 → (s.ctx c).caches.tlb = [] →
    (s.ctx c).caches.trTlb = [] → exec (.read e c gva n) s = .next t → (t.ctx c).caches.pml4c.isSome = true) ∧
  (∀ (i : Instr) (s t : State) (c : CtxId) (x : Pml4Cache), i ≠ .reset → (∀ m, i ≠ .ctxLoad c m) →
    (s.ctx c).caches.pml4c = some x → exec i s = .next t → (t.ctx c).caches.pml4c = some x) ∧
  (∀ (s : State) (wk : Walk) (x : Pml4Cache), s.walk = some wk → wk.forced = none → wk.pos = .pml4 →
    (s.ctx wk.req.ctx).caches.pml4c = some x →
    step s = exec (decodeEntry s.cfg .pml4 (x.entries.getD (idx4 wk.va).toNat 0)) s)

/-- A cached translation stays a candidate until an invalidation event (20_memory R99; the superset form is the model's choice, log 8): of
the instructions only RESET, and a CTX_LOAD of the context, remove elements from its TLB or TR TLB. A scheduled event that the platform
counts among its TLB_INVALIDATION_EVENTS discards what is cached of its context, or of every context, the PML4 cache too, and no value held
before it is one a later read of such a context may give (R95 c); any other event changes nothing; neither changes memory, registers or
exception state (92 D8; that events come in the schedule is the model's choice, log 36). No breach of the premise and no recorded write lies
in the future, which the invariant says of every state in form. -/
def Obligations.CachedTranslationsLastUntilAnInvalidationEvent : Prop :=
  (∀ (i : Instr) (s t : State) (c : CtxId), i ≠ .reset → (∀ m, i ≠ .ctxLoad c m) → exec i s = .next t →
    (∀ e ∈ (s.ctx c).caches.tlb, e ∈ (t.ctx c).caches.tlb) ∧ (∀ e ∈ (s.ctx c).caches.trTlb, e ∈ (t.ctx c).caches.trTlb)) ∧
  (∀ (s : State) (name : Nat) (d : Option CtxId) (rest : List Input), s.walk = none → s.schedule = .event name d :: rest →
    s.breach ≤ s.clock → (∀ w ∈ s.hist, w.time ≤ s.clock) →
    ∃ t, step s = .next t ∧ t.schedule = rest ∧ unchanged s t ∧
      (name ∈ s.cfg.addedEvents → ∀ c, d = none ∨ d = some c → t.cold c ∧ ∀ sp a n, t.writesTo c sp a n = []) ∧
      (∀ c, name ∉ s.cfg.addedEvents ∨ (d ≠ none ∧ d ≠ some c) → t.ctx c = s.ctx c))

/-- A READ touches no other context: registers, values and everything cached of every other context are unchanged (10_state R44, R50). -/
def Obligations.ReadLeavesOtherContextsAlone : Prop :=
  ∀ (e : Engine) (c : CtxId) (gva : Word64) (n : Nat) (s t : State), exec (.read e c gva n) s = .next t → sameOtherContexts s t c

/-- A request that ends halted has changed no memory byte and no register, has raised no interrupt and has not asked for a reset; it is
recorded with its cause (60_exceptions R272, R280 "One request reports at most one fault"). -/
def Obligations.HaltedRequestHasHadNoEffect : Prop :=
  ∀ (i : Instr) (q : Nat) (c : Cause) (s t : State),
    ((∃ e x g n, i = .read e x g n) ∨ (∃ e x g n v, i = .write e x g n v)) → exec i s = .next t → t.result = .halted q c →
    q = s.nextReq ∧ (∃ h, assocGet t.halted q = some h ∧ h.cause = c) ∧
    (∀ k, k ≠ q → assocGet t.halted k = assocGet s.halted k) ∧ sameMemory s t ∧ sameRegisters s t ∧
    t.needsReset = s.needsReset ∧ t.irqInvalidTile = s.irqInvalidTile ∧ sameCounter s t

/-- A request ends within its own operation: READ, WRITE and FAULT_RESPONSE leave no walk open (10_state R64, 20_memory R95 a). -/
def Obligations.RequestsEndWithinTheirOperation : Prop :=
  ∀ (i : Instr) (s t : State),
    ((∃ e x g n, i = .read e x g n) ∨ (∃ e x g n v, i = .write e x g n v) ∨ (∃ q ok, i = .faultResponse q ok)) →
    exec i s = .next t → t.walk = none

/-- STEPPING AN OPEN WALK IS RUNNING IT: where a walk run to its end inside an operation ends in `t`, as many steps of the machine, at most
nineteen, end in `t` (log 5). -/
def Obligations.SteppingAWalkIsRunningIt : Prop :=
  ∀ s t : State, runWalk walkBound s = .next t → t.walk = none → ∃ k, k ≤ walkBound ∧ runsTo k s t

/-! ## Requests against the rules -/

/-- READ FOLLOWS THE RULES (40_request_pipeline R151, R152; 42_ggtt R201; 43_ppgtt R218; 41_trtt R175). An admitted READ in a context that
is quiescent, whose cached translations agree with the tables, whose PML4 pointer names memory that exists (log 21), and whose faults the
platform can repair, does what the rules' pseudocode says of the tables in memory, whichever cached translations are used: data or zeros
with the null indicator, the interrupt, the fault, or the refusal; nothing is said where the walk meets an entry that is being written
piecewise (20_memory R79). The model's choices it rests on: an Invalid tile leaves NULLCNT alone (log 14), where a misaligned or oversized
base is refused (log 20), which entries Dual Context refuses (log 24), which of several stops comes first (log 29). -/
def Obligations.ReadFollowsTheRules : Prop :=
  ∀ (s : State) (e : Engine) (c : CtxId) (gva : Word64) (n : Nat),
    admitted s c gva n → coherent s c → (∀ x, recoverable s.cfg x = true) →
    ((s.ctx c).pml4.toNat + 4096 ≤ 2 ^ s.cfg.haw.bits) →
    served s { id := s.nextReq, agent := e, ctx := c, gva := gva, n := n, value := none } (exec (.read e c gva n) s)
      (ruleTranslate s e c gva)

/-- WRITE FOLLOWS THE RULES (40_request_pipeline R153; 43_ppgtt R234): as for READ; a write is permitted where every entry of the PPGTT path
has R/W set, and then exactly its bytes are stored; otherwise it halts with WriteDenied and stores nothing. Premises and choices as for
READ: the PML4 pointer names memory that exists (log 21); logs 14, 20, 24 and 29; a WRITE whose target only reaches into the GGTT is refused
(DEDUCED, log 37). -/
def Obligations.WriteFollowsTheRules : Prop :=
  ∀ (s : State) (e : Engine) (c : CtxId) (gva : Word64) (n v : Nat),
    admitted s c gva n → coherent s c → (∀ x, recoverable s.cfg x = true) →
    ((s.ctx c).pml4.toNat + 4096 ≤ 2 ^ s.cfg.haw.bits) →
    served s { id := s.nextReq, agent := e, ctx := c, gva := gva, n := n, value := some v } (exec (.write e c gva n v) s)
      (ruleTranslate s e c gva)

/-- A SUCCESSFUL FAULT RESPONSE RE-EXECUTES THE REQUEST (60_exceptions R274): the halted request is taken from the record and performed
again from its admission, by the rules, in the state as it is now. Premises and choices as for WRITE (logs 14, 20, 21, 24, 29, 37). -/
def Obligations.FaultResponseReexecutesTheRequest : Prop :=
  ∀ (s : State) (k : Nat) (h : Halted),
    assocGet s.halted k = some h →
    (let s1 : State := { s with halted := assocErase s.halted k }
     admitted s1 h.req.ctx h.req.gva h.req.n → coherent s1 h.req.ctx → (∀ x, recoverable s.cfg x = true) →
     ((s.ctx h.req.ctx).pml4.toNat + 4096 ≤ 2 ^ s.cfg.haw.bits) →
     served s1 h.req (exec (.faultResponse k true) s) (ruleTranslate s1 h.req.agent h.req.ctx h.req.gva))

/-- A REQUEST TO A PRESENT GLOBAL PAGE COMPLETES (42_ggtt R201, R204; 40_request_pipeline R152, R153; 60_exceptions R274). Where the GGTT
entry of an admitted request in GLOBAL has its Present bit set and the target lies outside the GGTT, READ completes with the bytes at ADDR :
offset, WRITE stores its bytes there, and a successful response to such a halted READ completes it. -/
def Obligations.PresentGlobalPageCompletesRequests : Prop :=
  ∀ (s : State) (e : Engine) (gva entry : Word64) (n v : Nat),
    admitted s .global gva n → coherent s .global →
    s.cfg.ggttBase.extractLsb' 0 12 = 0 → s.cfg.ggttBase.toNat + 2 ^ 23 ≤ 2 ^ s.cfg.haw.bits →
    entry = BitVec.ofNat 64 (s.physRead .system (s.cfg.ggttBase + (gva.extractLsb' 12 20).setWidth 64 <<< 3) 8) →
    entry.getLsbD 0 = true →
    (let pa : Word64 := frameOf s.cfg entry ++ gva.extractLsb' 0 12
     (∃ t, exec (.read e .global gva n) s = .next t ∧ t.walk = none ∧
       t.result = .read s.nextReq (s.physRead .system pa n) false ∧ unchanged s t) ∧
     (inGgtt s.cfg .system pa.toNat n = false →
       ∃ t, exec (.write e .global gva n v) s = .next t ∧ t.walk = none ∧ t.result = .write s.nextReq ∧
         holds t .system pa.toNat n v ∧ sameMemoryOutside s t .system pa.toNat n ∧ sameRegisters s t ∧ samePending s t ∧
         sameCounter s t) ∧
     (∀ k h, assocGet s.halted k = some h → h.req = { id := k, agent := e, ctx := .global, gva := gva, n := n, value := none } →
       ∃ t, exec (.faultResponse k true) s = .next t ∧ t.walk = none ∧ t.result = .read k (s.physRead .system pa n) false ∧
         t.halted = assocErase s.halted k ∧ sameMemory s t ∧ sameRegisters s t ∧ t.needsReset = s.needsReset ∧
         t.irqInvalidTile = s.irqInvalidTile ∧ sameCounter s t))

/-- Requests that are not admitted are refused by name, in order: upper address bits, a size of 0 or a 4 KB crossing, a size or alignment
outside the platform's own limits (00_scope R6; name and place are the model's, log 31), a pending reset (40_request_pipeline R156 with the
default GVA_UPPER_OK). Of a context of a kind that is only named the upper bits are not looked at (model's choice, log 30). -/
def Obligations.RequestsNotAdmittedAreRefused : Prop :=
  ∀ (s : State) (e : Engine) (c : CtxId) (gva : Word64) (n v : Nat) (i : Instr),
    s.cfg.upper = .zero → (i = .read e c gva n ∨ i = .write e c gva n v) →
    ((((s.ctx c).kind = .ggtt ∧ 2 ^ s.cfg.ggttVaBits ≤ gva.toNat) ∨ ((s.ctx c).kind = .ppgtt48 ∧ 2 ^ s.cfg.ppgttVaBits ≤ gva.toNat)) →
      exec i s = .refused .gvaUpperBits) ∧
    (((s.ctx c).kind = .ggtt → gva.toNat < 2 ^ s.cfg.ggttVaBits) → ((s.ctx c).kind = .ppgtt48 → gva.toNat < 2 ^ s.cfg.ppgttVaBits) →
      ((n = 0 ∨ 4096 < (gva.extractLsb' 0 12).toNat + n) → exec i s = .refused .requestCrosses4kb) ∧
      (1 ≤ n → (gva.extractLsb' 0 12).toNat + n ≤ 4096 →
        ((s.cfg.maxRequestBytes < n ∨ gva.toNat % 2 ^ s.cfg.requestAlign ≠ 0) → exec i s = .refused .requestShape) ∧
        (n ≤ s.cfg.maxRequestBytes → gva.toNat % 2 ^ s.cfg.requestAlign = 0 → s.needsReset = true →
          exec i s = .refused .afterNonrecoverableFault)))

/-- An admitted request of an engine that is neither Render nor POSH whose address is a TR-VA while TR-TT is active is refused (41_trtt
R188). The context uses its present registers (no older copy may be in use, log 11). -/
def Obligations.OtherEnginesMayNotUseTiles : Prop :=
  ∀ (s : State) (e : Engine) (c : CtxId) (gva : Word64) (n v : Nat) (i : Instr),
    admitted s c gva n → (s.ctx c).kind = .ppgtt48 → (s.ctx c).caches.trOld = [] →
    trActive s.cfg s.trbypass (s.ctx c).tr = true → trDetect (s.ctx c).tr gva = some true → e ≠ .render → e ≠ .posh →
    (i = .read e c gva n ∨ i = .write e c gva n v) → exec i s = .refused .trttEngine

/-- Tile requests under registers the spec excludes are refused, in the order of the walk: a detection mask that is neither 0000 nor 1111,
tables in physical space, equal Null and Invalid values, an L3 table inside the TR-VA range (41_trtt R171, R175, R182; 10_state R37;
70_reset_and_hazards R307). Nothing of the context is cached and no older register copy is in use (log 11). -/
def Obligations.TileRequestsUnderExcludedRegistersAreRefused : Prop :=
  ∀ (s : State) (e : Engine) (c : CtxId) (gva : Word64) (n v : Nat) (i : Instr),
    admitted s c gva n → (s.ctx c).kind = .ppgtt48 → (s.ctx c).caches.trOld = [] → (s.ctx c).caches.trTlb = [] →
    trActive s.cfg s.trbypass (s.ctx c).tr = true → (e = .render ∨ e = .posh) → (i = .read e c gva n ∨ i = .write e c gva n v) →
    (let r := (s.ctx c).tr
     let l3 : Word64 := (0 : BitVec 16) ++ r.l3ptr.extractLsb' 16 32 ++ (0 : BitVec 4) ++ gva.extractLsb' 35 9 ++ (0 : BitVec 3)
     (trDetect r gva = none → exec i s = .refused .trvamvUnsupported) ∧
     (trDetect r gva = some true → r.trtte.getLsbD 1 = false → exec i s = .refused .trttGpaMode) ∧
     (trDetect r gva = some true → r.trtte.getLsbD 1 = true → r.nulldet = r.invdet → exec i s = .refused .trttNullEqInvalid) ∧
     (trDetect r gva = some true → r.trtte.getLsbD 1 = true → r.nulldet ≠ r.invdet → trDetect r l3 = some true →
       exec i s = .refused .trttTableInTrva))

/-- BYPASS BEFORE USE (70_reset_and_hazards R304): while the bypass is enabled TR-TT is inactive, and a request of a per-process context
goes to the PPGTT untranslated, whatever its TR-TT registers hold: READ and WRITE do what PPGTT_Walk says of the untranslated address.
Premises as for READ: an admitted request in a context that is quiescent, whose cached translations agree with the tables, whose PML4
pointer names memory that exists (log 21), and whose faults the platform can repair; nothing is said where the walk meets an entry that is
being written piecewise (20_memory R79). The model's choices it rests on: a misaligned PML4 pointer is refused where the walk begins (log
20), before a missing second level (log 29); a target that only reaches into the GGTT is in it (log 37). -/
def Obligations.BypassedTileAddressesGoToThePpgtt : Prop :=
  ∀ (s : State) (e : Engine) (c : CtxId) (gva : Word64) (n v : Nat),
    admitted s c gva n → coherent s c → (∀ x, recoverable s.cfg x = true) → ((s.ctx c).pml4.toNat + 4096 ≤ 2 ^ s.cfg.haw.bits) →
    (s.ctx c).kind = .ppgtt48 → s.trbypass = false →
    served s { id := s.nextReq, agent := e, ctx := c, gva := gva, n := n, value := none } (exec (.read e c gva n) s)
      (rulePpgtt s c gva) ∧
    served s { id := s.nextReq, agent := e, ctx := c, gva := gva, n := n, value := some v } (exec (.write e c gva n v) s)
      (rulePpgtt s c gva)

/-- ONLY INVALID TILES INTERRUPT (60_exceptions R271): the interrupt becomes pending only by an entry that says Invalid, or inside a
request; by a READ, a WRITE or a successful fault response in a coherent context, with faults the platform can repair, only where the rules
translate the request's address to an Invalid tile (or meet an entry that is being written piecewise, of which they say nothing); and by an
unsuccessful fault response to a request that halted outside a TR-TT table read never. Premises and choices as for READ: the PML4 pointer
names memory that exists (log 21); logs 20, 24 and 29 decide which requests a rule refuses first. -/
def Obligations.OnlyInvalidTilesInterrupt : Prop :=
  (∀ (i : Instr) (s t : State), exec i s = .next t → s.irqInvalidTile = false → t.irqInvalidTile = true →
    (∃ e c g n, i = .read e c g n) ∨ (∃ e c g n v, i = .write e c g n v) ∨ (∃ q ok, i = .faultResponse q ok) ∨
      ∃ wk pos, s.walk = some wk ∧ tileView wk.regs i = some (pos, .invalid)) ∧
  (∀ (i : Instr) (s t : State) (e : Engine) (c : CtxId) (gva : Word64) (n v : Nat),
    admitted s c gva n → coherent s c → (∀ x, recoverable s.cfg x = true) → ((s.ctx c).pml4.toNat + 4096 ≤ 2 ^ s.cfg.haw.bits) →
    (i = .read e c gva n ∨ i = .write e c gva n v) → exec i s = .next t → s.irqInvalidTile = false → t.irqInvalidTile = true →
    ruleTranslate s e c gva = .invalidTile ∨ ruleTranslate s e c gva = .unsettled) ∧
  (∀ (s t : State) (k : Nat) (h : Halted), assocGet s.halted k = some h →
    (let s1 : State := { s with halted := assocErase s.halted k }
     admitted s1 h.req.ctx h.req.gva h.req.n → coherent s1 h.req.ctx → (∀ x, recoverable s.cfg x = true) →
     ((s.ctx h.req.ctx).pml4.toNat + 4096 ≤ 2 ^ s.cfg.haw.bits) →
     exec (.faultResponse k true) s = .next t → s.irqInvalidTile = false → t.irqInvalidTile = true →
     ruleTranslate s1 h.req.agent h.req.ctx h.req.gva = .invalidTile ∨
       ruleTranslate s1 h.req.agent h.req.ctx h.req.gva = .unsettled)) ∧
  (∀ (s t : State) (k : Nat) (h : Halted), assocGet s.halted k = some h → h.stage = .data →
    exec (.faultResponse k false) s = .next t → t.irqInvalidTile = s.irqInvalidTile)

/-- GGTT ONLY THROUGH ITS WINDOW (70_reset_and_hazards R309): a host store, and an engine's WRITE whose address the rules translate, into
the GGTT's 8 MB are refused. That a store of which only some bytes lie there is refused too is the model's inference (DEDUCED, log 37).
Premises of the first clause: the address exists (log 21). Premises of the second, as for READ: an admitted request in a context that is
quiescent, whose cached translations agree with the tables, whose PML4 pointer names memory that exists (log 21), and whose faults the
platform can repair; the rules permit the write, and the refusal comes after that check (log 29). -/
def Obligations.StoresIntoTheGgttAreRefused : Prop :=
  (∀ (s : State) (pa : Word64) (n v : Nat), pa.toNat + n ≤ 2 ^ s.cfg.haw.bits → inGgtt s.cfg .system pa.toNat n = true →
    exec (.tableWrite .system pa n v) s = .refused .ggttDirectWrite) ∧
  (∀ (s : State) (e : Engine) (c : CtxId) (gva pa : Word64) (n v : Nat),
    admitted s c gva n → coherent s c → (∀ x, recoverable s.cfg x = true) → ((s.ctx c).pml4.toNat + 4096 ≤ 2 ^ s.cfg.haw.bits) →
    ruleTranslate s e c gva = .phys .system pa true → inGgtt s.cfg .system pa.toNat n = true →
    exec (.write e c gva n v) s = .refused .ggttDirectWrite)

/-- AFTER A NON-RECOVERABLE FAULT, RESET (70_reset_and_hazards R314): while a reset is expected every request is refused, and so is the
re-execution of a halted one. -/
def Obligations.AfterANonRecoverableFaultRequestsAreRefused : Prop :=
  ∀ s : State, s.needsReset = true →
    (∀ e c g n, ∃ why, exec (.read e c g n) s = .refused why) ∧ (∀ e c g n v, ∃ why, exec (.write e c g n v) s = .refused why) ∧
    (∀ k h, assocGet s.halted k = some h → ∃ why, exec (.faultResponse k true) s = .refused why)

/-- An admitted request in a context of a kind the source only names is refused (43_ppgtt R243). Such a request is admitted whatever its
upper address bits (model's choice, log 30). -/
def Obligations.UndefinedModesAreRefused : Prop :=
  ∀ (s : State) (e : Engine) (c : CtxId) (gva : Word64) (n v : Nat) (i : Instr),
    admitted s c gva n → ((s.ctx c).kind = .advPpgtt64 ∨ (s.ctx c).kind = .ppgtt32) →
    (i = .read e c gva n ∨ i = .write e c gva n v) → exec i s = .refused .undefinedPpgttMode

/-! ## Entries of the GGTT and the PPGTT -/

/-- A present GGTT entry serves the data access at ADDR : offset, System memory, writable (42_ggtt R201, R204, R205): a READ in a context
inside the quiescence premise returns the present bytes; a WRITE stores exactly its bytes; a WRITE into the GGTT's own 8 MB is refused
(R209), also where only some of its bytes lie there (DEDUCED, log 37). -/
def Obligations.GgttEntryServesTheAccess : Prop :=
  ∀ (s : State) (wk : Walk) (a : BitVec 34) (fn : BitVec 3), reading s .ggtt wk →
    (let pa : Word64 := (a ++ wk.va.extractLsb' 0 12).setWidth 64
     (wk.req.value = none → s.broken wk.req.ctx = false →
       ∃ t, exec (.ggttPte a fn) s = .next t ∧ t.walk = none ∧
         t.result = .read wk.req.id (s.physRead .system pa wk.req.n) false ∧ unchanged s t ∧ sameOtherContexts s t wk.req.ctx) ∧
     (∀ v, wk.req.value = some v → inGgtt s.cfg .system pa.toNat wk.req.n = false →
       ∃ t, exec (.ggttPte a fn) s = .next t ∧ t.walk = none ∧ t.result = .write wk.req.id ∧
         holds t .system pa.toNat wk.req.n v ∧ sameMemoryOutside s t .system pa.toNat wk.req.n ∧
         sameRegisters s t ∧ samePending s t ∧ sameCounter s t) ∧
     (∀ v, wk.req.value = some v → inGgtt s.cfg .system pa.toNat wk.req.n = true →
       exec (.ggttPte a fn) s = .refused .ggttDirectWrite))

/-- A PPGTT pointer entry (PML4E, PDPE_PD, PDE_PT with and without the 64 KB indicator) sends the walk to the next level's entry at SL(ADDR
: index : 000), the permission ANDed with its R/W bit, and changes nothing else; without a supplied second level it is refused (43_ppgtt
R219 to R223, R239). -/
def Obligations.PointerEntryGoesOneLevelDown : Prop :=
  ∀ (s : State) (wk : Walk) (i : Instr) (pos next : Pos) (gpa : Word64) (rw : Bool),
    pointerView wk.va i = some (pos, next, gpa, rw) → reading s pos wk →
    (∀ pa, s.sl wk.req.ctx gpa = some pa →
      ∃ t wk', exec i s = .next t ∧ t.walk = some wk' ∧ wk'.pos = next ∧ wk'.space = .system ∧ wk'.pa = pa ∧
        wk'.w = (wk.w && rw) ∧ wk'.va = wk.va ∧ wk'.req = wk.req ∧ wk'.stage = wk.stage ∧ wk'.spurious = false ∧
        unchanged s t ∧ (∀ c, t.ctx c = s.ctx c)) ∧
    (s.sl wk.req.ctx gpa = none → exec i s = .refused .nestedTranslationUnmodelled)

/-- A PPGTT leaf entry of any page size that is not Null serves a READ with the bytes at SL(ADDR : offset) of its space, whatever its R/W,
PAT, PCD and PWT bits (43_ppgtt R222 to R225, R235, R237, R238; 30_encoding R126). -/
def Obligations.LeafEntryServesRead : Prop :=
  ∀ (s : State) (wk : Walk) (i : Instr) (pos : Pos) (gpa pa : Word64) (sp : Space) (f : LeafBits),
    leafView s.cfg wk.va i = some (pos, gpa, sp, f) → reading s pos wk → wk.stage = .data → wk.req.value = none →
    f.null = false → s.sl wk.req.ctx gpa = some pa → s.broken wk.req.ctx = false →
    ∃ t, exec i s = .next t ∧ t.walk = none ∧ t.result = .read wk.req.id (s.physRead sp pa wk.req.n) false ∧ unchanged s t ∧
      sameOtherContexts s t wk.req.ctx

/-- A PPGTT leaf entry that is not Null serves a WRITE: with R/W set here and above, exactly the request's bytes are stored at SL(ADDR :
offset), outside the GGTT; with some R/W clear the request halts with WriteDenied and nothing is stored (43_ppgtt R234; 60_exceptions R262,
R272). A target that only reaches into the GGTT is refused too (DEDUCED, log 37). -/
def Obligations.LeafEntryServesWrite : Prop :=
  ∀ (s : State) (wk : Walk) (i : Instr) (pos : Pos) (gpa pa : Word64) (sp : Space) (f : LeafBits) (v : Nat),
    leafView s.cfg wk.va i = some (pos, gpa, sp, f) → reading s pos wk → wk.stage = .data → wk.req.value = some v →
    f.null = false → s.sl wk.req.ctx gpa = some pa →
    (wk.w = true → f.rw = true → inGgtt s.cfg sp pa.toNat wk.req.n = false →
      ∃ t, exec i s = .next t ∧ t.walk = none ∧ t.result = .write wk.req.id ∧ holds t sp pa.toNat wk.req.n v ∧
        sameMemoryOutside s t sp pa.toNat wk.req.n ∧ sameRegisters s t ∧ samePending s t ∧ sameCounter s t) ∧
    (wk.w = true → f.rw = true → inGgtt s.cfg sp pa.toNat wk.req.n = true → exec i s = .refused .ggttDirectWrite) ∧
    ((wk.w && f.rw) = false → recoverable s.cfg (.writeDenied wk.req.gva) = true →
      halts s wk.req (.writeDenied wk.req.gva) (exec i s))

/-- A Null leaf entry: a READ gives zeros with the null indicator, a permitted WRITE is dropped, a WRITE without permission halts; no memory
is accessed and no interrupt is raised (43_ppgtt R236, 92 D14). -/
def Obligations.NullLeafCompletesWithoutMemory : Prop :=
  ∀ (s : State) (wk : Walk) (i : Instr) (pos : Pos) (gpa : Word64) (sp : Space) (f : LeafBits),
    leafView s.cfg wk.va i = some (pos, gpa, sp, f) → reading s pos wk → wk.stage = .data → f.null = true →
    (wk.req.value = none ∨ (wk.w && f.rw) = true →
      ∃ t, exec i s = .next t ∧ t.walk = none ∧ t.result = zeroCompletion wk.req ∧ unchanged s t ∧ sameOtherContexts s t wk.req.ctx) ∧
    (wk.req.value.isSome = true → (wk.w && f.rw) = false → recoverable s.cfg (.writeDenied wk.req.gva) = true →
      halts s wk.req (.writeDenied wk.req.gva) (exec i s))

/-- In the walk of a TR-TT table read, a leaf entry of any page size that is not Null sends the TR walker to the table entry at SL(ADDR :
offset); a Null page is refused (41_trtt R176). -/
def Obligations.LeafEntryServesATableRead : Prop :=
  ∀ (s : State) (wk : Walk) (i : Instr) (pos : Pos) (gpa : Word64) (sp : Space) (f : LeafBits) (l : TrLevel),
    leafView s.cfg wk.va i = some (pos, gpa, sp, f) → reading s pos wk → wk.stage = .table l →
    (∀ pa, f.null = false → s.sl wk.req.ctx gpa = some pa →
      ∃ t wk', exec i s = .next t ∧ t.walk = some wk' ∧ wk'.pos = l.pos ∧ wk'.space = sp ∧ wk'.pa = pa ∧ wk'.req = wk.req ∧
        wk'.regs = wk.regs ∧ wk'.spurious = false ∧ unchanged s t ∧ sameOtherContexts s t wk.req.ctx) ∧
    (f.null = true → exec i s = .refused .trttTableInNullPage)

/-- A GGTT or PPGTT entry with Present clear halts the request with NotPresent of the level and the address being walked; for a WRITE whose
path lacks permission too (60_exceptions R261, R272, R280). -/
def Obligations.NotPresentEntryHaltsTheRequest : Prop :=
  ∀ (s : State) (wk : Walk) (pos : Pos) (l : Level),
    (pos = .ggtt ∧ l = .ggtt ∨ pos = .pml4 ∧ l = .pml4 ∨ pos = .pdp ∧ l = .pdp ∨ pos = .pd ∧ l = .pd ∨ pos = .pt4k ∧ l = .pt ∨
      pos = .pt64k ∧ l = .pt) →
    reading s pos wk → recoverable s.cfg (.notPresent l wk.va) = true →
    halts s wk.req (.notPresent l wk.va) (exec .notPresent s)

/-- A fault the platform cannot repair, and any fault of a spurious cycle, be it NotPresent or the WriteDenied of a leaf entry, Null or not:
outside a TR-TT table read the request ends with NonRecoverable, nothing stored; in a table read the walker goes on with an incorrect entry,
and memory is unconstrained (00_scope R9, 60_exceptions R277 a); `needs_reset` is set in both (60_exceptions R277; what a further fault of a
spurious cycle does is the model's choice, log 23). -/
def Obligations.UnrepairableFaultAsksForReset : Prop :=
  (∀ (s : State) (wk : Walk) (l : Level), s.walk = some wk → levelOf wk.pos = some l →
    (wk.spurious = true ∨ recoverable s.cfg (.notPresent l wk.va) = false) →
    ∃ t, exec .notPresent s = .next t ∧ t.needsReset = true ∧ sameRegisters s t ∧ t.halted = s.halted ∧
      t.irqInvalidTile = s.irqInvalidTile ∧ sameCounter s t ∧
      (wk.stage = .data → sameMemory s t ∧ t.walk = none ∧
        ∃ d, t.result = .nonRecoverable wk.req.id d ∧ (d.isSome = wk.req.value.isNone)) ∧
      (∀ x, wk.stage = .table x → ∃ wk', t.walk = some wk' ∧ wk'.pos = x.pos ∧ wk'.spurious = true ∧
        wk'.forced = some (Config.incorrectEntry s.draws))) ∧
  (∀ (s : State) (wk : Walk) (i : Instr) (pos : Pos) (gpa : Word64) (sp : Space) (f : LeafBits),
    leafView s.cfg wk.va i = some (pos, gpa, sp, f) → s.walk = some wk → wk.pos = pos → wk.stage = .data →
    wk.req.value.isSome = true → (wk.w && f.rw) = false → (f.null = true ∨ (s.sl wk.req.ctx gpa).isSome = true) →
    (wk.spurious = true ∨ recoverable s.cfg (.writeDenied wk.req.gva) = false) →
    ∃ t, exec i s = .next t ∧ t.needsReset = true ∧ t.walk = none ∧ t.result = .nonRecoverable wk.req.id none ∧ sameMemory s t ∧
      sameRegisters s t ∧ t.halted = s.halted ∧ t.irqInvalidTile = s.irqInvalidTile ∧ sameCounter s t)

/-! ## Entries of TR-TT -/

/-- A TR-TT L3 or L2 pointer entry: the next table's entry is read at ADDR : index : zeros, a virtual address outside the TR-VA range that
the PPGTT walks from its PML4 entry where the TLB holds nothing for it, in a context whose walk can begin: PML4 pointer aligned and in
memory that exists, second level there (41_trtt R172 to R174, R176). -/
def Obligations.TrPointerReadsTheNextTable : Prop :=
  ∀ (s : State) (wk : Walk) (i : Instr) (pos : Pos) (l : TrLevel) (a : Word64) (bit47 : Bool),
    trPointerView wk.req.gva i = some (pos, l, a, bit47) → reading s pos wk → (s.cfg.dualContext && bit47) = false →
    (trDetect wk.regs a = some false → tlbMisses s wk.req.ctx a → walkable s wk.req.ctx →
      ∃ t wk', exec i s = .next t ∧ t.walk = some wk' ∧ wk'.pos = .pml4 ∧ wk'.stage = .table l ∧ wk'.va = a ∧ wk'.req = wk.req ∧
        wk'.regs = wk.regs ∧ wk'.spurious = false ∧ wk'.w = true ∧ unchanged s t ∧ sameOtherContexts s t wk.req.ctx) ∧
    (trDetect wk.regs a = some true → exec i s = .refused .trttTableInTrva)

/-- Under Dual Context an L3 or L2 pointer with bit 47 set, and an L1 address with bit 31 set, are refused (41_trtt R189). That a pointer is
refused where it is used, whatever the tables below it hold, and that an entry which is Null or Invalid is not, is the model's inference
(DEDUCED, log 24); that the refusal comes before TRTT_TABLE_IN_TRVA and every other stop of the next table read is the model's choice (log
29): R175 (d) orders neither. -/
def Obligations.DualContextRefusesBit47 : Prop :=
  ∀ (s : State) (wk : Walk), s.cfg.dualContext = true →
    (∀ a : BitVec 36, reading s .trL3 wk → a.getLsbD 35 = true → exec (.trttL3Pointer a) s = .refused .trttDualContextBit47) ∧
    (∀ a : BitVec 36, reading s .trL2 wk → a.getLsbD 35 = true → exec (.trttL2Pointer a) s = .refused .trttDualContextBit47) ∧
    (∀ e : Word32, reading s .trL1 wk → e.getLsbD 31 = true → e ≠ wk.regs.nulldet → e ≠ wk.regs.invdet →
      exec (.trttL1 e) s = .refused .trttDualContextBit47)

/-- A Null tile (an L3 or L2 Null flag, an L1 entry equal to TRNULLDET): zeros with the null indicator for a READ, a dropped WRITE; no
memory byte, register, interrupt or fault (41_trtt R178, R179, R183). The Null-tile counter is free (R185). -/
def Obligations.NullTileCompletesWithoutMemory : Prop :=
  ∀ (s : State) (wk : Walk) (i : Instr) (pos : Pos), tileView wk.regs i = some (pos, .null) → reading s pos wk →
    ∃ t, exec i s = .next t ∧ t.walk = none ∧ t.result = zeroCompletion wk.req ∧ sameMemory s t ∧ sameRegisters s t ∧
      samePending s t ∧ sameOtherContexts s t wk.req.ctx

/-- An Invalid tile: zeros with the null indicator for a READ, a dropped WRITE, as for a Null tile, and the Invalid-tile interrupt becomes
pending (41_trtt R184, 60_exceptions R269). That it leaves the Null-tile counter alone is the model's choice (log 14): R152 and R153 name
NullTileSeen for a Null tile only. -/
def Obligations.InvalidTileAlsoInterrupts : Prop :=
  ∀ (s : State) (wk : Walk) (i : Instr) (pos : Pos), tileView wk.regs i = some (pos, .invalid) → reading s pos wk →
    ∃ t, exec i s = .next t ∧ t.walk = none ∧ t.result = zeroCompletion wk.req ∧ t.irqInvalidTile = true ∧ sameMemory s t ∧
      sameRegisters s t ∧ t.halted = s.halted ∧ t.needsReset = s.needsReset ∧ sameCounter s t ∧ sameOtherContexts s t wk.req.ctx

/-- An L1 entry that is neither detection value maps the tile: the PPGTT walks L1 entry : gva[15:0] from its PML4 entry for the data, where
the TLB holds nothing for it, in a context whose walk can begin: PML4 pointer aligned and in memory that exists, second level there (41_trtt
R180, 30_encoding R127). -/
def Obligations.MappedTileIsTranslatedByThePpgtt : Prop :=
  ∀ (s : State) (wk : Walk) (e : Word32), reading s .trL1 wk → e ≠ wk.regs.nulldet → e ≠ wk.regs.invdet →
    (s.cfg.dualContext && e.getLsbD 31) = false →
    (let a : Word64 := (0 : BitVec 16) ++ e ++ wk.req.gva.extractLsb' 0 16
     tlbMisses s wk.req.ctx a → walkable s wk.req.ctx →
     ∃ t wk', exec (.trttL1 e) s = .next t ∧ t.walk = some wk' ∧ wk'.pos = .pml4 ∧ wk'.stage = .data ∧ wk'.va = a ∧
       wk'.req = wk.req ∧ wk'.spurious = false ∧ wk'.w = true ∧ unchanged s t ∧ sameOtherContexts s t wk.req.ctx)

/-- An L3 or L2 entry with both flags set has no meaning in the source and is refused (41_trtt R178). -/
def Obligations.NullAndInvalidIsRefused : Prop :=
  ∀ (s : State) (wk : Walk),
    (reading s .trL3 wk → exec .trttL3NullAndInvalid s = .refused .trttNullAndInvalid) ∧
    (reading s .trL2 wk → exec .trttL2NullAndInvalid s = .refused .trttNullAndInvalid)

/-- In a spurious cycle, after a non-recoverable fault, such an entry ends the request with NonRecoverable (60_exceptions R277; the model's
choice of what a spurious cycle meets, log 23); a READ still leaves memory alone. -/
def Obligations.NullAndInvalidEndsASpuriousCycle : Prop :=
  ∀ (s : State) (wk : Walk) (i : Instr), s.walk = some wk → wk.spurious = true →
    (i = .trttL3NullAndInvalid ∧ wk.pos = .trL3 ∨ i = .trttL2NullAndInvalid ∧ wk.pos = .trL2) →
    ∃ t d, exec i s = .next t ∧ t.walk = none ∧ t.needsReset = true ∧ t.result = .nonRecoverable wk.req.id d ∧
      sameRegisters s t ∧ t.halted = s.halted ∧ t.irqInvalidTile = s.irqInvalidTile ∧ sameCounter s t ∧
      (wk.req.value = none → sameMemory s t)

/-! ## Registers -/

/-- RESERVED BITS READ ZERO AND IGNORE WRITES (10_state R42, R44): MMIO_WRITE of a DWord of a context's registers, then MMIO_READ of the
same DWord, gives the value with the reserved bits zero; every other DWord of the context reads as before; every other context, the
context's other values, TRBYPASS, memory, exception state and counter are unchanged. -/
def Obligations.RegisterReadsBackItsFields : Prop :=
  ∀ (s : State) (r : RegName) (k : Nat) (v : Word32), perContext r = true →
    ∃ t u, exec (.mmioWrite r (.proc k) v) s = .next t ∧ exec (.mmioRead r (.proc k)) t = .next u ∧
      u.result = .register (v &&& fieldBits r) ∧
      (∀ r', perContext r' = true → r' ≠ r → regsReadDword (t.ctx (.proc k)).tr r' = regsReadDword (s.ctx (.proc k)).tr r') ∧
      (∀ c, c ≠ .proc k → t.ctx c = s.ctx c) ∧
      (t.ctx (.proc k)).kind = (s.ctx (.proc k)).kind ∧ (t.ctx (.proc k)).pml4 = (s.ctx (.proc k)).pml4 ∧
      (t.ctx (.proc k)).neste = (s.ctx (.proc k)).neste ∧ (t.ctx (.proc k)).wpe = (s.ctx (.proc k)).wpe ∧
      t.cfg = s.cfg ∧ t.trbypass = s.trbypass ∧ t.pgtblCtl2 = s.pgtblCtl2 ∧
      sameMemory s t ∧ samePending s t ∧ sameCounter s t

/-- MMIO_READ of a context's DWord completes with its value, reserved bits zero, and has no side effect (40_request_pipeline R161). -/
def Obligations.RegisterReadHasNoSideEffect : Prop :=
  ∀ (s : State) (r : RegName) (k : Nat), perContext r = true →
    ∃ t v, exec (.mmioRead r (.proc k)) s = .next t ∧ t.result = .register v ∧ regsReadDword (s.ctx (.proc k)).tr r = some v ∧
      v &&& fieldBits r = v ∧ unchanged s t ∧ (∀ c, t.ctx c = s.ctx c)

/-- TRBYPASS, by name or at offset 0x4DFC: a write sets bit 0 and nothing else; a read gives bit 0 back; a read of NULLCNT completes too
(10_state R38, R41; 40_request_pipeline R160, R161). The other bits read, and NULLCNT, are free values (log 14, log 25). -/
def Obligations.BypassBitIsWrittenAndRead : Prop :=
  ∀ (s : State) (r : RegName) (c : CtxId) (v : Word32), (r = .trbypass ∨ r = .offset 0x4DFC#32) →
    (∃ t, exec (.mmioWrite r c v) s = .next t ∧ t.trbypass = v.getLsbD 0 ∧ t.cfg = s.cfg ∧ t.pgtblCtl2 = s.pgtblCtl2 ∧
      (∀ c', t.ctx c' = s.ctx c') ∧ sameMemory s t ∧ samePending s t ∧ sameCounter s t) ∧
    (∃ t x, exec (.mmioRead r c) s = .next t ∧ t.result = .register x ∧ x.getLsbD 0 = s.trbypass ∧ unchanged s t ∧
      (∀ c', t.ctx c' = s.ctx c')) ∧
    (∃ t x, exec (.mmioRead .nullcnt c) s = .next t ∧ t.result = .register x ∧ unchanged s t ∧ (∀ c', t.ctx c' = s.ctx c'))

/-- Accesses to registers without layout are refused: PGTBL_CTL and PGTBL_CTL2, NULLCNT for a write, an offset that names no register
(40_request_pipeline R160, R161). -/
def Obligations.UnmodelledRegistersAreRefused : Prop :=
  ∀ (s : State) (c : CtxId) (v o : Word32), o ≠ 0x4DFC#32 → s.cfg.offsets.lookup o = none →
    exec (.mmioWrite .pgtblCtl c v) s = .refused .unmodelledRegister ∧ exec (.mmioRead .pgtblCtl c) s = .refused .unmodelledRegister ∧
    exec (.mmioWrite .pgtblCtl2 c v) s = .refused .unmodelledRegister ∧
    exec (.mmioRead .pgtblCtl2 c) s = .refused .unmodelledRegister ∧
    exec (.mmioWrite .nullcnt c v) s = .refused .unmodelledRegister ∧
    exec (.mmioWrite (.offset o) c v) s = .refused .unmodelledRegister ∧
    exec (.mmioRead (.offset o) c) s = .refused .unmodelledRegister

/-! ## Tables -/

/-- GGTT_UPDATE stores the entry's eight bytes at GGTT_BASE + 8 * index and nothing else (40_request_pipeline R162), where GGTT_BASE is one
the spec admits (20_memory R73, 30_encoding R131). -/
def Obligations.GgttUpdateStoresOneEntry : Prop :=
  ∀ (s : State) (k : BitVec 20) (e : Word64),
    s.cfg.ggttBase.extractLsb' 0 12 = 0 → s.cfg.ggttBase.toNat + 2 ^ 23 ≤ 2 ^ s.cfg.haw.bits →
    ∃ t, exec (.ggttUpdate k e) s = .next t ∧ holds t .system (s.cfg.ggttBase.toNat + 8 * k.toNat) 8 e.toNat ∧
      sameMemoryOutside s t .system (s.cfg.ggttBase.toNat + 8 * k.toNat) 8 ∧ sameRegisters s t ∧ samePending s t ∧ sameCounter s t ∧
      t.walk = s.walk

/-- MI_UPDATE_GTT is its GGTT_UPDATEs in order (40_request_pipeline R163): each index named ends with the last entry given for it, and every
byte that is in none of the named entries is unchanged. One step for the whole command, and that a command of no update is done and changes
nothing, are the model's choices (log 35). -/
def Obligations.MiUpdateGttIsASequenceOfUpdates : Prop :=
  ∀ (s : State) (l : List (BitVec 20 × Word64)),
    s.cfg.ggttBase.extractLsb' 0 12 = 0 → s.cfg.ggttBase.toNat + 2 ^ 23 ≤ 2 ^ s.cfg.haw.bits →
    ∃ t, exec (.miUpdateGtt l) s = .next t ∧
      (∀ l1 k e l2, l = l1 ++ (k, e) :: l2 → (∀ u ∈ l2, u.1 ≠ k) →
        holds t .system (s.cfg.ggttBase.toNat + 8 * k.toNat) 8 e.toNat) ∧
      (∀ sp b, (∀ u ∈ l, ¬ (sp = .system ∧ s.cfg.ggttBase.toNat + 8 * u.1.toNat ≤ b ∧
        b < s.cfg.ggttBase.toNat + 8 * u.1.toNat + 8)) → t.byteAt sp b = s.byteAt sp b) ∧
      sameRegisters s t ∧ samePending s t ∧ sameCounter s t ∧ t.walk = s.walk

/-- A GGTT base that is misaligned, or whose 8 MB do not fit, is refused (20_memory R73, 30_encoding R131). That the refusal is raised at
each of the two updates, alignment first, is the model's inference (DEDUCED, log 20): the spec refuses the programming without saying when.
-/
def Obligations.BadGgttBaseRefusesUpdates : Prop :=
  ∀ (s : State) (k : BitVec 20) (e : Word64) (l : List (BitVec 20 × Word64)),
    (s.cfg.ggttBase.extractLsb' 0 12 ≠ 0 →
      exec (.ggttUpdate k e) s = .refused .misalignedTableBase ∧ exec (.miUpdateGtt l) s = .refused .misalignedTableBase) ∧
    (s.cfg.ggttBase.extractLsb' 0 12 = 0 → ¬ s.cfg.ggttBase.toNat + 2 ^ 23 ≤ 2 ^ s.cfg.haw.bits →
      exec (.ggttUpdate k e) s = .refused .ggttBeyondMemory ∧ exec (.miUpdateGtt l) s = .refused .ggttBeyondMemory)

/-- TABLE_WRITE stores exactly its bytes, lowest address first, in memory that exists and outside the GGTT; into the GGTT it is refused
(40_request_pipeline R164), also where only some of the bytes lie there (DEDUCED, log 37); memory that does not exist stops the machine
(model's choice, log 21, log 29); a width of 0, on which R164 is silent, changes nothing (model's choice, log 37). -/
def Obligations.TableWriteStoresItsBytes : Prop :=
  ∀ (s : State) (sp : Space) (pa : Word64) (n v : Nat),
    ((sp = .system ∨ s.cfg.hasLocalMemory = true) → pa.toNat + n ≤ 2 ^ s.cfg.haw.bits → inGgtt s.cfg sp pa.toNat n = false →
      ∃ t, exec (.tableWrite sp pa n v) s = .next t ∧ holds t sp pa.toNat n v ∧ sameMemoryOutside s t sp pa.toNat n ∧
        sameRegisters s t ∧ samePending s t ∧ sameCounter s t ∧ t.walk = s.walk) ∧
    ((sp = .system ∨ s.cfg.hasLocalMemory = true) → pa.toNat + n ≤ 2 ^ s.cfg.haw.bits → inGgtt s.cfg sp pa.toNat n = true →
      exec (.tableWrite sp pa n v) s = .refused .ggttDirectWrite) ∧
    ((sp = .system ∨ s.cfg.hasLocalMemory = true) → 0 < n → 2 ^ s.cfg.haw.bits < pa.toNat + n →
      exec (.tableWrite sp pa n v) s = .fault .noSuchPhysicalAddress) ∧
    (sp = .device → s.cfg.hasLocalMemory = false → 0 < n → exec (.tableWrite sp pa n v) s = .fault .noDeviceMemory) ∧
    (n = 0 → exec (.tableWrite sp pa n v) s = .next { s with result := .done })

/-! ## Control -/

/-- CTX_LOAD gives a process context the values of its image and, as an invalidation event, empties its TLB, TR TLB and PML4 cache; the
TR-TT registers become the image's fields where the image restores them, else they stay; every other context, TRBYPASS, memory, exception
state and counter are unchanged (40_request_pipeline R165, 10_state R46; the image is the model's, log 17). No breach of the premise lies in
the future, which the invariant says of every state in form. -/
def Obligations.CtxLoadInstallsTheContext : Prop :=
  ∀ (s : State) (k : Nat) (m : CtxImage), s.cfg.ctxLoadInvalidates = true → s.breach ≤ s.clock →
    ∃ t, exec (.ctxLoad (.proc k) m) s = .next t ∧
      (t.ctx (.proc k)).kind = m.kind ∧ (t.ctx (.proc k)).pml4 = m.pml4 ∧ (t.ctx (.proc k)).neste = m.neste ∧
      (t.ctx (.proc k)).wpe = m.wpe ∧
      (m.regs = none → (t.ctx (.proc k)).tr = (s.ctx (.proc k)).tr) ∧
      (∀ r n, m.regs = some r → perContext n = true →
        regsReadDword (t.ctx (.proc k)).tr n = (regsReadDword r n).map (· &&& fieldBits n)) ∧
      t.cold (.proc k) ∧ (∀ c, c ≠ .proc k → t.ctx c = s.ctx c) ∧
      t.cfg = s.cfg ∧ t.trbypass = s.trbypass ∧ t.pgtblCtl2 = s.pgtblCtl2 ∧ sameMemory s t ∧ samePending s t ∧ sameCounter s t

/-- An unsuccessful fault response ends the request: it is no longer halted, every other halted request stays recorded, `needs_reset` is
set, no walk is left open, the registers are unchanged and the result is NonRecoverable; outside a TR-TT table read no memory byte, no
interrupt and no counter changes (60_exceptions R277). That it answers so also where a rule refuses what the incorrect data leads to is the
model's choice (log 23). The PML4 pointer names memory that exists (log 21). -/
def Obligations.UnsuccessfulResponseEndsTheRequest : Prop :=
  ∀ (s : State) (k : Nat) (h : Halted), assocWf s.halted = true → assocGet s.halted k = some h →
    ((s.ctx h.req.ctx).pml4.toNat + 4096 ≤ 2 ^ s.cfg.haw.bits) →
    ∃ t, exec (.faultResponse k false) s = .next t ∧ t.needsReset = true ∧ t.walk = none ∧ assocGet t.halted k = none ∧
      (∀ j, j ≠ k → assocGet t.halted j = assocGet s.halted j) ∧
      sameRegisters s t ∧ (∃ d, t.result = .nonRecoverable h.req.id d ∧ d.isSome = h.req.value.isNone) ∧
      (h.stage = .data → sameMemory s t ∧ t.irqInvalidTile = s.irqInvalidTile ∧ sameCounter s t)

/-- A response to a request that is not halted is refused (60_exceptions R274). -/
def Obligations.ResponseWithoutAFaultIsRefused : Prop :=
  ∀ (s : State) (k : Nat) (ok : Bool), assocGet s.halted k = none → exec (.faultResponse k ok) s = .refused .noSuchFault

/-- ACK_INVALID_TILE clears the pending interrupt and changes nothing else (60_exceptions R270). -/
def Obligations.AckClearsTheInterrupt : Prop :=
  ∀ s : State, ∃ t, exec .ackInvalidTile s = .next t ∧ t.irqInvalidTile = false ∧ t.halted = s.halted ∧ t.needsReset = s.needsReset ∧
    sameMemory s t ∧ sameRegisters s t ∧ sameCounter s t ∧ (∀ c, t.ctx c = s.ctx c) ∧ t.walk = s.walk

/-- RESET APPLIES THE STATED DEFAULTS (10_state R66), from every state, and State.reset has them: every TR-TT register field of every
context is 0 and reads as 0, and the TR-TT bypass is enabled. -/
def Obligations.ResetAppliesTheStatedDefaults : Prop :=
  (∀ s : State, ∃ t, exec .reset s = .next t ∧ t.trbypass = false ∧
    ∀ k r, perContext r = true → (t.ctx (.proc k)).tr = { l3ptr := 0, nulldet := 0, invdet := 0, trvadr := 0, trtte := 0 } ∧
      ∃ u, exec (.mmioRead r (.proc k)) t = .next u ∧ u.result = .register 0) ∧
  State.reset.trbypass = false ∧
  ∀ k, (State.reset.ctx (.proc k)).tr = { l3ptr := 0, nulldet := 0, invdet := 0, trvadr := 0, trtte := 0 }

/-- RESET leaves every context without cached translations, nothing halted, no interrupt, no request in flight and no reset expected
(70_reset_and_hazards R290, 10_state R67). The configuration and the per-context values are left alone, and memory is not claimed (log 4,
log 16). -/
def Obligations.ResetEmptiesTheHiddenState : Prop :=
  ∀ s : State, ∃ t, exec .reset s = .next t ∧ (∀ c, t.cold c) ∧ t.halted = [] ∧ t.irqInvalidTile = false ∧ t.needsReset = false ∧
    t.walk = none ∧ t.cfg = s.cfg ∧
    (∀ c, (t.ctx c).kind = (s.ctx c).kind ∧ (t.ctx c).pml4 = (s.ctx c).pml4 ∧ (t.ctx c).neste = (s.ctx c).neste ∧
      (t.ctx c).wpe = (s.ctx c).wpe)
end

