-- ==== Sys2Proof/Laws/State.lean ====
section
/-! SUPPORT. One lemma per field for each named update of the state, and a context's record after the updates that touch it. -/

namespace Sys2Proof.Machine

/-! ### drawn -/

@[simp] theorem drawn_cfg (s : State) : s.drawn.cfg = s.cfg := rfl
@[simp] theorem drawn_mem (s : State) : s.drawn.mem = s.mem := rfl
@[simp] theorem drawn_epoch (s : State) : s.drawn.epoch = s.epoch := rfl
@[simp] theorem drawn_trbypass (s : State) : s.drawn.trbypass = s.trbypass := rfl
@[simp] theorem drawn_nullcnt (s : State) : s.drawn.nullcnt = s.nullcnt := rfl
@[simp] theorem drawn_pgtblCtl2 (s : State) : s.drawn.pgtblCtl2 = s.pgtblCtl2 := rfl
@[simp] theorem drawn_globalCaches (s : State) : s.drawn.globalCaches = s.globalCaches := rfl
@[simp] theorem drawn_ctxs (s : State) : s.drawn.ctxs = s.ctxs := rfl
@[simp] theorem drawn_irqInvalidTile (s : State) : s.drawn.irqInvalidTile = s.irqInvalidTile := rfl
@[simp] theorem drawn_halted (s : State) : s.drawn.halted = s.halted := rfl
@[simp] theorem drawn_needsReset (s : State) : s.drawn.needsReset = s.needsReset := rfl
@[simp] theorem drawn_walk (s : State) : s.drawn.walk = s.walk := rfl
@[simp] theorem drawn_schedule (s : State) : s.drawn.schedule = s.schedule := rfl
@[simp] theorem drawn_result (s : State) : s.drawn.result = s.result := rfl
@[simp] theorem drawn_nextReq (s : State) : s.drawn.nextReq = s.nextReq := rfl
@[simp] theorem drawn_hist (s : State) : s.drawn.hist = s.hist := rfl
@[simp] theorem drawn_clock (s : State) : s.drawn.clock = s.clock := rfl
@[simp] theorem drawn_breach (s : State) : s.drawn.breach = s.breach := rfl
@[simp] theorem drawn_flushedAt (s : State) : s.drawn.flushedAt = s.flushedAt := rfl

/-! ### setCaches -/

@[simp] theorem setCaches_cfg (s : State) (c : CtxId) (h : Caches) : (s.setCaches c h).cfg = s.cfg := by cases c <;> rfl
@[simp] theorem setCaches_mem (s : State) (c : CtxId) (h : Caches) : (s.setCaches c h).mem = s.mem := by cases c <;> rfl
@[simp] theorem setCaches_epoch (s : State) (c : CtxId) (h : Caches) : (s.setCaches c h).epoch = s.epoch := by cases c <;> rfl
@[simp] theorem setCaches_trbypass (s : State) (c : CtxId) (h : Caches) : (s.setCaches c h).trbypass = s.trbypass := by cases c <;> rfl
@[simp] theorem setCaches_nullcnt (s : State) (c : CtxId) (h : Caches) : (s.setCaches c h).nullcnt = s.nullcnt := by cases c <;> rfl
@[simp] theorem setCaches_pgtblCtl2 (s : State) (c : CtxId) (h : Caches) : (s.setCaches c h).pgtblCtl2 = s.pgtblCtl2 := by cases c <;> rfl
@[simp] theorem setCaches_irqInvalidTile (s : State) (c : CtxId) (h : Caches) : (s.setCaches c h).irqInvalidTile = s.irqInvalidTile := by cases c <;> rfl
@[simp] theorem setCaches_halted (s : State) (c : CtxId) (h : Caches) : (s.setCaches c h).halted = s.halted := by cases c <;> rfl
@[simp] theorem setCaches_needsReset (s : State) (c : CtxId) (h : Caches) : (s.setCaches c h).needsReset = s.needsReset := by cases c <;> rfl
@[simp] theorem setCaches_walk (s : State) (c : CtxId) (h : Caches) : (s.setCaches c h).walk = s.walk := by cases c <;> rfl
@[simp] theorem setCaches_schedule (s : State) (c : CtxId) (h : Caches) : (s.setCaches c h).schedule = s.schedule := by cases c <;> rfl
@[simp] theorem setCaches_result (s : State) (c : CtxId) (h : Caches) : (s.setCaches c h).result = s.result := by cases c <;> rfl
@[simp] theorem setCaches_nextReq (s : State) (c : CtxId) (h : Caches) : (s.setCaches c h).nextReq = s.nextReq := by cases c <;> rfl
@[simp] theorem setCaches_hist (s : State) (c : CtxId) (h : Caches) : (s.setCaches c h).hist = s.hist := by cases c <;> rfl
@[simp] theorem setCaches_clock (s : State) (c : CtxId) (h : Caches) : (s.setCaches c h).clock = s.clock := by cases c <;> rfl
@[simp] theorem setCaches_breach (s : State) (c : CtxId) (h : Caches) : (s.setCaches c h).breach = s.breach := by cases c <;> rfl
@[simp] theorem setCaches_flushedAt (s : State) (c : CtxId) (h : Caches) : (s.setCaches c h).flushedAt = s.flushedAt := by cases c <;> rfl
@[simp] theorem setCaches_draws (s : State) (c : CtxId) (h : Caches) : (s.setCaches c h).draws = s.draws := by cases c <;> rfl

/-! ### setCtx -/

@[simp] theorem setCtx_cfg (s : State) (c : CtxId) (x : Ctx) : (s.setCtx c x).cfg = s.cfg := by cases c <;> rfl
@[simp] theorem setCtx_mem (s : State) (c : CtxId) (x : Ctx) : (s.setCtx c x).mem = s.mem := by cases c <;> rfl
@[simp] theorem setCtx_epoch (s : State) (c : CtxId) (x : Ctx) : (s.setCtx c x).epoch = s.epoch := by cases c <;> rfl
@[simp] theorem setCtx_trbypass (s : State) (c : CtxId) (x : Ctx) : (s.setCtx c x).trbypass = s.trbypass := by cases c <;> rfl
@[simp] theorem setCtx_nullcnt (s : State) (c : CtxId) (x : Ctx) : (s.setCtx c x).nullcnt = s.nullcnt := by cases c <;> rfl
@[simp] theorem setCtx_pgtblCtl2 (s : State) (c : CtxId) (x : Ctx) : (s.setCtx c x).pgtblCtl2 = s.pgtblCtl2 := by cases c <;> rfl
@[simp] theorem setCtx_irqInvalidTile (s : State) (c : CtxId) (x : Ctx) : (s.setCtx c x).irqInvalidTile = s.irqInvalidTile := by cases c <;> rfl
@[simp] theorem setCtx_halted (s : State) (c : CtxId) (x : Ctx) : (s.setCtx c x).halted = s.halted := by cases c <;> rfl
@[simp] theorem setCtx_needsReset (s : State) (c : CtxId) (x : Ctx) : (s.setCtx c x).needsReset = s.needsReset := by cases c <;> rfl
@[simp] theorem setCtx_walk (s : State) (c : CtxId) (x : Ctx) : (s.setCtx c x).walk = s.walk := by cases c <;> rfl
@[simp] theorem setCtx_schedule (s : State) (c : CtxId) (x : Ctx) : (s.setCtx c x).schedule = s.schedule := by cases c <;> rfl
@[simp] theorem setCtx_result (s : State) (c : CtxId) (x : Ctx) : (s.setCtx c x).result = s.result := by cases c <;> rfl
@[simp] theorem setCtx_nextReq (s : State) (c : CtxId) (x : Ctx) : (s.setCtx c x).nextReq = s.nextReq := by cases c <;> rfl
@[simp] theorem setCtx_hist (s : State) (c : CtxId) (x : Ctx) : (s.setCtx c x).hist = s.hist := by cases c <;> rfl
@[simp] theorem setCtx_proc_globalCaches (s : State) (k : Nat) (x : Ctx) : (s.setCtx (.proc k) x).globalCaches = s.globalCaches := rfl
@[simp] theorem setCtx_clock (s : State) (c : CtxId) (x : Ctx) : (s.setCtx c x).clock = s.clock := by cases c <;> rfl
@[simp] theorem setCtx_breach (s : State) (c : CtxId) (x : Ctx) : (s.setCtx c x).breach = s.breach := by cases c <;> rfl
@[simp] theorem setCtx_flushedAt (s : State) (c : CtxId) (x : Ctx) : (s.setCtx c x).flushedAt = s.flushedAt := by cases c <;> rfl
@[simp] theorem setCtx_draws (s : State) (c : CtxId) (x : Ctx) : (s.setCtx c x).draws = s.draws := by cases c <;> rfl

/-! ### physWrite -/

@[simp] theorem physWrite_cfg (s : State) (w : Agent) (sp : Space) (pa : Word64) (b : List Byte) : (s.physWrite w sp pa b).cfg = s.cfg := rfl
@[simp] theorem physWrite_epoch (s : State) (w : Agent) (sp : Space) (pa : Word64) (b : List Byte) : (s.physWrite w sp pa b).epoch = s.epoch := rfl
@[simp] theorem physWrite_trbypass (s : State) (w : Agent) (sp : Space) (pa : Word64) (b : List Byte) : (s.physWrite w sp pa b).trbypass = s.trbypass := rfl
@[simp] theorem physWrite_nullcnt (s : State) (w : Agent) (sp : Space) (pa : Word64) (b : List Byte) : (s.physWrite w sp pa b).nullcnt = s.nullcnt := rfl
@[simp] theorem physWrite_pgtblCtl2 (s : State) (w : Agent) (sp : Space) (pa : Word64) (b : List Byte) : (s.physWrite w sp pa b).pgtblCtl2 = s.pgtblCtl2 := rfl
@[simp] theorem physWrite_irqInvalidTile (s : State) (w : Agent) (sp : Space) (pa : Word64) (b : List Byte) : (s.physWrite w sp pa b).irqInvalidTile = s.irqInvalidTile := rfl
@[simp] theorem physWrite_halted (s : State) (w : Agent) (sp : Space) (pa : Word64) (b : List Byte) : (s.physWrite w sp pa b).halted = s.halted := rfl
@[simp] theorem physWrite_needsReset (s : State) (w : Agent) (sp : Space) (pa : Word64) (b : List Byte) : (s.physWrite w sp pa b).needsReset = s.needsReset := rfl
@[simp] theorem physWrite_walk (s : State) (w : Agent) (sp : Space) (pa : Word64) (b : List Byte) : (s.physWrite w sp pa b).walk = s.walk := rfl
@[simp] theorem physWrite_schedule (s : State) (w : Agent) (sp : Space) (pa : Word64) (b : List Byte) : (s.physWrite w sp pa b).schedule = s.schedule := rfl
@[simp] theorem physWrite_result (s : State) (w : Agent) (sp : Space) (pa : Word64) (b : List Byte) : (s.physWrite w sp pa b).result = s.result := rfl
@[simp] theorem physWrite_nextReq (s : State) (w : Agent) (sp : Space) (pa : Word64) (b : List Byte) : (s.physWrite w sp pa b).nextReq = s.nextReq := rfl
@[simp] theorem physWrite_draws (s : State) (w : Agent) (sp : Space) (pa : Word64) (b : List Byte) : (s.physWrite w sp pa b).draws = s.draws := rfl
@[simp] theorem physWrite_globalCaches (s : State) (w : Agent) (sp : Space) (pa : Word64) (b : List Byte) : (s.physWrite w sp pa b).globalCaches = s.globalCaches := rfl
@[simp] theorem physWrite_ctxs (s : State) (w : Agent) (sp : Space) (pa : Word64) (b : List Byte) : (s.physWrite w sp pa b).ctxs = s.ctxs := rfl
@[simp] theorem physWrite_flushedAt (s : State) (w : Agent) (sp : Space) (pa : Word64) (b : List Byte) : (s.physWrite w sp pa b).flushedAt = s.flushedAt := rfl
@[simp] theorem physWrite_clock (s : State) (w : Agent) (sp : Space) (pa : Word64) (b : List Byte) : (s.physWrite w sp pa b).clock = s.clock + 1 := rfl

/-! ### fillTlb -/

@[simp] theorem fillTlb_cfg (s : State) (c : CtxId) (e : TlbEntry) : (s.fillTlb c e).cfg = s.cfg := by
  unfold State.fillTlb; dsimp only; split <;> simp
@[simp] theorem fillTlb_mem (s : State) (c : CtxId) (e : TlbEntry) : (s.fillTlb c e).mem = s.mem := by
  unfold State.fillTlb; dsimp only; split <;> simp
@[simp] theorem fillTlb_epoch (s : State) (c : CtxId) (e : TlbEntry) : (s.fillTlb c e).epoch = s.epoch := by
  unfold State.fillTlb; dsimp only; split <;> simp
@[simp] theorem fillTlb_trbypass (s : State) (c : CtxId) (e : TlbEntry) : (s.fillTlb c e).trbypass = s.trbypass := by
  unfold State.fillTlb; dsimp only; split <;> simp
@[simp] theorem fillTlb_nullcnt (s : State) (c : CtxId) (e : TlbEntry) : (s.fillTlb c e).nullcnt = s.nullcnt := by
  unfold State.fillTlb; dsimp only; split <;> simp
@[simp] theorem fillTlb_pgtblCtl2 (s : State) (c : CtxId) (e : TlbEntry) : (s.fillTlb c e).pgtblCtl2 = s.pgtblCtl2 := by
  unfold State.fillTlb; dsimp only; split <;> simp
@[simp] theorem fillTlb_irqInvalidTile (s : State) (c : CtxId) (e : TlbEntry) : (s.fillTlb c e).irqInvalidTile = s.irqInvalidTile := by
  unfold State.fillTlb; dsimp only; split <;> simp
@[simp] theorem fillTlb_halted (s : State) (c : CtxId) (e : TlbEntry) : (s.fillTlb c e).halted = s.halted := by
  unfold State.fillTlb; dsimp only; split <;> simp
@[simp] theorem fillTlb_needsReset (s : State) (c : CtxId) (e : TlbEntry) : (s.fillTlb c e).needsReset = s.needsReset := by
  unfold State.fillTlb; dsimp only; split <;> simp
@[simp] theorem fillTlb_walk (s : State) (c : CtxId) (e : TlbEntry) : (s.fillTlb c e).walk = s.walk := by
  unfold State.fillTlb; dsimp only; split <;> simp
@[simp] theorem fillTlb_schedule (s : State) (c : CtxId) (e : TlbEntry) : (s.fillTlb c e).schedule = s.schedule := by
  unfold State.fillTlb; dsimp only; split <;> simp
@[simp] theorem fillTlb_result (s : State) (c : CtxId) (e : TlbEntry) : (s.fillTlb c e).result = s.result := by
  unfold State.fillTlb; dsimp only; split <;> simp
@[simp] theorem fillTlb_nextReq (s : State) (c : CtxId) (e : TlbEntry) : (s.fillTlb c e).nextReq = s.nextReq := by
  unfold State.fillTlb; dsimp only; split <;> simp
@[simp] theorem fillTlb_hist (s : State) (c : CtxId) (e : TlbEntry) : (s.fillTlb c e).hist = s.hist := by
  unfold State.fillTlb; dsimp only; split <;> simp
@[simp] theorem fillTlb_clock (s : State) (c : CtxId) (e : TlbEntry) : (s.fillTlb c e).clock = s.clock := by
  unfold State.fillTlb; dsimp only; split <;> simp
@[simp] theorem fillTlb_breach (s : State) (c : CtxId) (e : TlbEntry) : (s.fillTlb c e).breach = s.breach := by
  unfold State.fillTlb; dsimp only; split <;> simp
@[simp] theorem fillTlb_flushedAt (s : State) (c : CtxId) (e : TlbEntry) : (s.fillTlb c e).flushedAt = s.flushedAt := by
  unfold State.fillTlb; dsimp only; split <;> simp
@[simp] theorem fillTlb_draws (s : State) (c : CtxId) (e : TlbEntry) : (s.fillTlb c e).draws = s.draws := by
  unfold State.fillTlb; dsimp only; split <;> simp

/-! ### fillTrTlb -/

@[simp] theorem fillTrTlb_cfg (s : State) (c : CtxId) (e : TrTlbEntry) : (s.fillTrTlb c e).cfg = s.cfg := by
  unfold State.fillTrTlb; dsimp only; split <;> simp
@[simp] theorem fillTrTlb_mem (s : State) (c : CtxId) (e : TrTlbEntry) : (s.fillTrTlb c e).mem = s.mem := by
  unfold State.fillTrTlb; dsimp only; split <;> simp
@[simp] theorem fillTrTlb_epoch (s : State) (c : CtxId) (e : TrTlbEntry) : (s.fillTrTlb c e).epoch = s.epoch := by
  unfold State.fillTrTlb; dsimp only; split <;> simp
@[simp] theorem fillTrTlb_trbypass (s : State) (c : CtxId) (e : TrTlbEntry) : (s.fillTrTlb c e).trbypass = s.trbypass := by
  unfold State.fillTrTlb; dsimp only; split <;> simp
@[simp] theorem fillTrTlb_nullcnt (s : State) (c : CtxId) (e : TrTlbEntry) : (s.fillTrTlb c e).nullcnt = s.nullcnt := by
  unfold State.fillTrTlb; dsimp only; split <;> simp
@[simp] theorem fillTrTlb_pgtblCtl2 (s : State) (c : CtxId) (e : TrTlbEntry) : (s.fillTrTlb c e).pgtblCtl2 = s.pgtblCtl2 := by
  unfold State.fillTrTlb; dsimp only; split <;> simp
@[simp] theorem fillTrTlb_irqInvalidTile (s : State) (c : CtxId) (e : TrTlbEntry) : (s.fillTrTlb c e).irqInvalidTile = s.irqInvalidTile := by
  unfold State.fillTrTlb; dsimp only; split <;> simp
@[simp] theorem fillTrTlb_halted (s : State) (c : CtxId) (e : TrTlbEntry) : (s.fillTrTlb c e).halted = s.halted := by
  unfold State.fillTrTlb; dsimp only; split <;> simp
@[simp] theorem fillTrTlb_needsReset (s : State) (c : CtxId) (e : TrTlbEntry) : (s.fillTrTlb c e).needsReset = s.needsReset := by
  unfold State.fillTrTlb; dsimp only; split <;> simp
@[simp] theorem fillTrTlb_walk (s : State) (c : CtxId) (e : TrTlbEntry) : (s.fillTrTlb c e).walk = s.walk := by
  unfold State.fillTrTlb; dsimp only; split <;> simp
@[simp] theorem fillTrTlb_schedule (s : State) (c : CtxId) (e : TrTlbEntry) : (s.fillTrTlb c e).schedule = s.schedule := by
  unfold State.fillTrTlb; dsimp only; split <;> simp
@[simp] theorem fillTrTlb_result (s : State) (c : CtxId) (e : TrTlbEntry) : (s.fillTrTlb c e).result = s.result := by
  unfold State.fillTrTlb; dsimp only; split <;> simp
@[simp] theorem fillTrTlb_nextReq (s : State) (c : CtxId) (e : TrTlbEntry) : (s.fillTrTlb c e).nextReq = s.nextReq := by
  unfold State.fillTrTlb; dsimp only; split <;> simp
@[simp] theorem fillTrTlb_hist (s : State) (c : CtxId) (e : TrTlbEntry) : (s.fillTrTlb c e).hist = s.hist := by
  unfold State.fillTrTlb; dsimp only; split <;> simp
@[simp] theorem fillTrTlb_clock (s : State) (c : CtxId) (e : TrTlbEntry) : (s.fillTrTlb c e).clock = s.clock := by
  unfold State.fillTrTlb; dsimp only; split <;> simp
@[simp] theorem fillTrTlb_breach (s : State) (c : CtxId) (e : TrTlbEntry) : (s.fillTrTlb c e).breach = s.breach := by
  unfold State.fillTrTlb; dsimp only; split <;> simp
@[simp] theorem fillTrTlb_flushedAt (s : State) (c : CtxId) (e : TrTlbEntry) : (s.fillTrTlb c e).flushedAt = s.flushedAt := by
  unfold State.fillTrTlb; dsimp only; split <;> simp
@[simp] theorem fillTrTlb_draws (s : State) (c : CtxId) (e : TrTlbEntry) : (s.fillTrTlb c e).draws = s.draws := by
  unfold State.fillTrTlb; dsimp only; split <;> simp

/-! ### fillPml4 -/

@[simp] theorem fillPml4_cfg (s : State) (c : CtxId) (p : Word64) : (s.fillPml4 c p).cfg = s.cfg := by
  unfold State.fillPml4; dsimp only; split <;> simp
@[simp] theorem fillPml4_mem (s : State) (c : CtxId) (p : Word64) : (s.fillPml4 c p).mem = s.mem := by
  unfold State.fillPml4; dsimp only; split <;> simp
@[simp] theorem fillPml4_epoch (s : State) (c : CtxId) (p : Word64) : (s.fillPml4 c p).epoch = s.epoch := by
  unfold State.fillPml4; dsimp only; split <;> simp
@[simp] theorem fillPml4_trbypass (s : State) (c : CtxId) (p : Word64) : (s.fillPml4 c p).trbypass = s.trbypass := by
  unfold State.fillPml4; dsimp only; split <;> simp
@[simp] theorem fillPml4_nullcnt (s : State) (c : CtxId) (p : Word64) : (s.fillPml4 c p).nullcnt = s.nullcnt := by
  unfold State.fillPml4; dsimp only; split <;> simp
@[simp] theorem fillPml4_pgtblCtl2 (s : State) (c : CtxId) (p : Word64) : (s.fillPml4 c p).pgtblCtl2 = s.pgtblCtl2 := by
  unfold State.fillPml4; dsimp only; split <;> simp
@[simp] theorem fillPml4_irqInvalidTile (s : State) (c : CtxId) (p : Word64) : (s.fillPml4 c p).irqInvalidTile = s.irqInvalidTile := by
  unfold State.fillPml4; dsimp only; split <;> simp
@[simp] theorem fillPml4_halted (s : State) (c : CtxId) (p : Word64) : (s.fillPml4 c p).halted = s.halted := by
  unfold State.fillPml4; dsimp only; split <;> simp
@[simp] theorem fillPml4_needsReset (s : State) (c : CtxId) (p : Word64) : (s.fillPml4 c p).needsReset = s.needsReset := by
  unfold State.fillPml4; dsimp only; split <;> simp
@[simp] theorem fillPml4_walk (s : State) (c : CtxId) (p : Word64) : (s.fillPml4 c p).walk = s.walk := by
  unfold State.fillPml4; dsimp only; split <;> simp
@[simp] theorem fillPml4_schedule (s : State) (c : CtxId) (p : Word64) : (s.fillPml4 c p).schedule = s.schedule := by
  unfold State.fillPml4; dsimp only; split <;> simp
@[simp] theorem fillPml4_result (s : State) (c : CtxId) (p : Word64) : (s.fillPml4 c p).result = s.result := by
  unfold State.fillPml4; dsimp only; split <;> simp
@[simp] theorem fillPml4_nextReq (s : State) (c : CtxId) (p : Word64) : (s.fillPml4 c p).nextReq = s.nextReq := by
  unfold State.fillPml4; dsimp only; split <;> simp
@[simp] theorem fillPml4_hist (s : State) (c : CtxId) (p : Word64) : (s.fillPml4 c p).hist = s.hist := by
  unfold State.fillPml4; dsimp only; split <;> simp
@[simp] theorem fillPml4_clock (s : State) (c : CtxId) (p : Word64) : (s.fillPml4 c p).clock = s.clock := by
  unfold State.fillPml4; dsimp only; split <;> simp
@[simp] theorem fillPml4_breach (s : State) (c : CtxId) (p : Word64) : (s.fillPml4 c p).breach = s.breach := by
  unfold State.fillPml4; dsimp only; split <;> simp
@[simp] theorem fillPml4_flushedAt (s : State) (c : CtxId) (p : Word64) : (s.fillPml4 c p).flushedAt = s.flushedAt := by
  unfold State.fillPml4; dsimp only; split <;> simp

/-! ### nullTileSeen -/

@[simp] theorem nullTileSeen_cfg (s : State) : (nullTileSeen s).cfg = s.cfg := rfl
@[simp] theorem nullTileSeen_mem (s : State) : (nullTileSeen s).mem = s.mem := rfl
@[simp] theorem nullTileSeen_epoch (s : State) : (nullTileSeen s).epoch = s.epoch := rfl
@[simp] theorem nullTileSeen_trbypass (s : State) : (nullTileSeen s).trbypass = s.trbypass := rfl
@[simp] theorem nullTileSeen_pgtblCtl2 (s : State) : (nullTileSeen s).pgtblCtl2 = s.pgtblCtl2 := rfl
@[simp] theorem nullTileSeen_globalCaches (s : State) : (nullTileSeen s).globalCaches = s.globalCaches := rfl
@[simp] theorem nullTileSeen_ctxs (s : State) : (nullTileSeen s).ctxs = s.ctxs := rfl
@[simp] theorem nullTileSeen_irqInvalidTile (s : State) : (nullTileSeen s).irqInvalidTile = s.irqInvalidTile := rfl
@[simp] theorem nullTileSeen_halted (s : State) : (nullTileSeen s).halted = s.halted := rfl
@[simp] theorem nullTileSeen_needsReset (s : State) : (nullTileSeen s).needsReset = s.needsReset := rfl
@[simp] theorem nullTileSeen_walk (s : State) : (nullTileSeen s).walk = s.walk := rfl
@[simp] theorem nullTileSeen_schedule (s : State) : (nullTileSeen s).schedule = s.schedule := rfl
@[simp] theorem nullTileSeen_result (s : State) : (nullTileSeen s).result = s.result := rfl
@[simp] theorem nullTileSeen_nextReq (s : State) : (nullTileSeen s).nextReq = s.nextReq := rfl
@[simp] theorem nullTileSeen_hist (s : State) : (nullTileSeen s).hist = s.hist := rfl
@[simp] theorem nullTileSeen_clock (s : State) : (nullTileSeen s).clock = s.clock := rfl
@[simp] theorem nullTileSeen_breach (s : State) : (nullTileSeen s).breach = s.breach := rfl
@[simp] theorem nullTileSeen_flushedAt (s : State) : (nullTileSeen s).flushedAt = s.flushedAt := rfl

/-! ### endNonRecoverable -/

@[simp] theorem endNonRecoverable_cfg (wk : Walk) (s : State) : (endNonRecoverable wk s).cfg = s.cfg := rfl
@[simp] theorem endNonRecoverable_mem (wk : Walk) (s : State) : (endNonRecoverable wk s).mem = s.mem := rfl
@[simp] theorem endNonRecoverable_epoch (wk : Walk) (s : State) : (endNonRecoverable wk s).epoch = s.epoch := rfl
@[simp] theorem endNonRecoverable_trbypass (wk : Walk) (s : State) : (endNonRecoverable wk s).trbypass = s.trbypass := rfl
@[simp] theorem endNonRecoverable_nullcnt (wk : Walk) (s : State) : (endNonRecoverable wk s).nullcnt = s.nullcnt := rfl
@[simp] theorem endNonRecoverable_pgtblCtl2 (wk : Walk) (s : State) : (endNonRecoverable wk s).pgtblCtl2 = s.pgtblCtl2 := rfl
@[simp] theorem endNonRecoverable_globalCaches (wk : Walk) (s : State) : (endNonRecoverable wk s).globalCaches = s.globalCaches := rfl
@[simp] theorem endNonRecoverable_ctxs (wk : Walk) (s : State) : (endNonRecoverable wk s).ctxs = s.ctxs := rfl
@[simp] theorem endNonRecoverable_irqInvalidTile (wk : Walk) (s : State) : (endNonRecoverable wk s).irqInvalidTile = s.irqInvalidTile := rfl
@[simp] theorem endNonRecoverable_halted (wk : Walk) (s : State) : (endNonRecoverable wk s).halted = s.halted := rfl
@[simp] theorem endNonRecoverable_schedule (wk : Walk) (s : State) : (endNonRecoverable wk s).schedule = s.schedule := rfl
@[simp] theorem endNonRecoverable_nextReq (wk : Walk) (s : State) : (endNonRecoverable wk s).nextReq = s.nextReq := rfl
@[simp] theorem endNonRecoverable_hist (wk : Walk) (s : State) : (endNonRecoverable wk s).hist = s.hist := rfl
@[simp] theorem endNonRecoverable_clock (wk : Walk) (s : State) : (endNonRecoverable wk s).clock = s.clock := rfl
@[simp] theorem endNonRecoverable_breach (wk : Walk) (s : State) : (endNonRecoverable wk s).breach = s.breach := rfl
@[simp] theorem endNonRecoverable_flushedAt (wk : Walk) (s : State) : (endNonRecoverable wk s).flushedAt = s.flushedAt := rfl

@[simp] theorem endNonRecoverable_walk (wk : Walk) (s : State) : (endNonRecoverable wk s).walk = none := rfl
@[simp] theorem endNonRecoverable_needsReset (wk : Walk) (s : State) : (endNonRecoverable wk s).needsReset = true := rfl
@[simp] theorem physWrite_mem (s : State) (w : Agent) (sp : Space) (pa : Word64) (b : List Byte) :
    (s.physWrite w sp pa b).mem = s.mem.putBytes sp pa.toNat b := rfl

/-! ### memoryFreed -/

@[simp] theorem memoryFreed_cfg (s : State) : (s.memoryFreed).cfg = s.cfg := rfl
@[simp] theorem memoryFreed_epoch (s : State) : (s.memoryFreed).epoch = s.epoch := rfl
@[simp] theorem memoryFreed_trbypass (s : State) : (s.memoryFreed).trbypass = s.trbypass := rfl
@[simp] theorem memoryFreed_nullcnt (s : State) : (s.memoryFreed).nullcnt = s.nullcnt := rfl
@[simp] theorem memoryFreed_pgtblCtl2 (s : State) : (s.memoryFreed).pgtblCtl2 = s.pgtblCtl2 := rfl
@[simp] theorem memoryFreed_globalCaches (s : State) : (s.memoryFreed).globalCaches = s.globalCaches := rfl
@[simp] theorem memoryFreed_ctxs (s : State) : (s.memoryFreed).ctxs = s.ctxs := rfl
@[simp] theorem memoryFreed_irqInvalidTile (s : State) : (s.memoryFreed).irqInvalidTile = s.irqInvalidTile := rfl
@[simp] theorem memoryFreed_halted (s : State) : (s.memoryFreed).halted = s.halted := rfl
@[simp] theorem memoryFreed_needsReset (s : State) : (s.memoryFreed).needsReset = s.needsReset := rfl
@[simp] theorem memoryFreed_walk (s : State) : (s.memoryFreed).walk = s.walk := rfl
@[simp] theorem memoryFreed_schedule (s : State) : (s.memoryFreed).schedule = s.schedule := rfl
@[simp] theorem memoryFreed_result (s : State) : (s.memoryFreed).result = s.result := rfl
@[simp] theorem memoryFreed_nextReq (s : State) : (s.memoryFreed).nextReq = s.nextReq := rfl
@[simp] theorem memoryFreed_hist (s : State) : (s.memoryFreed).hist = s.hist := rfl
@[simp] theorem memoryFreed_clock (s : State) : (s.memoryFreed).clock = s.clock := rfl
@[simp] theorem memoryFreed_breach (s : State) : (s.memoryFreed).breach = s.breach := rfl
@[simp] theorem memoryFreed_flushedAt (s : State) : (s.memoryFreed).flushedAt = s.flushedAt := rfl

/-! ### setRegs -/

@[simp] theorem setRegs_cfg (s : State) (k : Nat) (r : TrRegs) : (s.setRegs k r).cfg = s.cfg := by
  unfold State.setRegs; dsimp only; split <;> simp
@[simp] theorem setRegs_mem (s : State) (k : Nat) (r : TrRegs) : (s.setRegs k r).mem = s.mem := by
  unfold State.setRegs; dsimp only; split <;> simp
@[simp] theorem setRegs_epoch (s : State) (k : Nat) (r : TrRegs) : (s.setRegs k r).epoch = s.epoch := by
  unfold State.setRegs; dsimp only; split <;> simp
@[simp] theorem setRegs_trbypass (s : State) (k : Nat) (r : TrRegs) : (s.setRegs k r).trbypass = s.trbypass := by
  unfold State.setRegs; dsimp only; split <;> simp
@[simp] theorem setRegs_nullcnt (s : State) (k : Nat) (r : TrRegs) : (s.setRegs k r).nullcnt = s.nullcnt := by
  unfold State.setRegs; dsimp only; split <;> simp
@[simp] theorem setRegs_pgtblCtl2 (s : State) (k : Nat) (r : TrRegs) : (s.setRegs k r).pgtblCtl2 = s.pgtblCtl2 := by
  unfold State.setRegs; dsimp only; split <;> simp
@[simp] theorem setRegs_globalCaches (s : State) (k : Nat) (r : TrRegs) : (s.setRegs k r).globalCaches = s.globalCaches := by
  unfold State.setRegs; dsimp only; split <;> simp
@[simp] theorem setRegs_irqInvalidTile (s : State) (k : Nat) (r : TrRegs) : (s.setRegs k r).irqInvalidTile = s.irqInvalidTile := by
  unfold State.setRegs; dsimp only; split <;> simp
@[simp] theorem setRegs_halted (s : State) (k : Nat) (r : TrRegs) : (s.setRegs k r).halted = s.halted := by
  unfold State.setRegs; dsimp only; split <;> simp
@[simp] theorem setRegs_needsReset (s : State) (k : Nat) (r : TrRegs) : (s.setRegs k r).needsReset = s.needsReset := by
  unfold State.setRegs; dsimp only; split <;> simp
@[simp] theorem setRegs_walk (s : State) (k : Nat) (r : TrRegs) : (s.setRegs k r).walk = s.walk := by
  unfold State.setRegs; dsimp only; split <;> simp
@[simp] theorem setRegs_schedule (s : State) (k : Nat) (r : TrRegs) : (s.setRegs k r).schedule = s.schedule := by
  unfold State.setRegs; dsimp only; split <;> simp
@[simp] theorem setRegs_result (s : State) (k : Nat) (r : TrRegs) : (s.setRegs k r).result = s.result := by
  unfold State.setRegs; dsimp only; split <;> simp
@[simp] theorem setRegs_nextReq (s : State) (k : Nat) (r : TrRegs) : (s.setRegs k r).nextReq = s.nextReq := by
  unfold State.setRegs; dsimp only; split <;> simp
@[simp] theorem setRegs_hist (s : State) (k : Nat) (r : TrRegs) : (s.setRegs k r).hist = s.hist := by
  unfold State.setRegs; dsimp only; split <;> simp
@[simp] theorem setRegs_flushedAt (s : State) (k : Nat) (r : TrRegs) : (s.setRegs k r).flushedAt = s.flushedAt := by
  unfold State.setRegs; dsimp only; split <;> simp
@[simp] theorem setRegs_draws (s : State) (k : Nat) (r : TrRegs) : (s.setRegs k r).draws = s.draws := by
  unfold State.setRegs; dsimp only; split <;> simp

/-! ### platformEvent -/

@[simp] theorem platformEvent_cfg (s : State) (name : Nat) (c : Option CtxId) : (s.platformEvent name c).cfg = s.cfg := by
  unfold State.platformEvent; split
  · split <;> simp
  · rfl
@[simp] theorem platformEvent_mem (s : State) (name : Nat) (c : Option CtxId) : (s.platformEvent name c).mem = s.mem := by
  unfold State.platformEvent; split
  · split <;> simp
  · rfl
@[simp] theorem platformEvent_epoch (s : State) (name : Nat) (c : Option CtxId) : (s.platformEvent name c).epoch = s.epoch := by
  unfold State.platformEvent; split
  · split <;> simp
  · rfl
@[simp] theorem platformEvent_trbypass (s : State) (name : Nat) (c : Option CtxId) : (s.platformEvent name c).trbypass = s.trbypass := by
  unfold State.platformEvent; split
  · split <;> simp
  · rfl
@[simp] theorem platformEvent_nullcnt (s : State) (name : Nat) (c : Option CtxId) : (s.platformEvent name c).nullcnt = s.nullcnt := by
  unfold State.platformEvent; split
  · split <;> simp
  · rfl
@[simp] theorem platformEvent_pgtblCtl2 (s : State) (name : Nat) (c : Option CtxId) : (s.platformEvent name c).pgtblCtl2 = s.pgtblCtl2 := by
  unfold State.platformEvent; split
  · split <;> simp
  · rfl
@[simp] theorem platformEvent_irqInvalidTile (s : State) (name : Nat) (c : Option CtxId) : (s.platformEvent name c).irqInvalidTile = s.irqInvalidTile := by
  unfold State.platformEvent; split
  · split <;> simp
  · rfl
@[simp] theorem platformEvent_halted (s : State) (name : Nat) (c : Option CtxId) : (s.platformEvent name c).halted = s.halted := by
  unfold State.platformEvent; split
  · split <;> simp
  · rfl
@[simp] theorem platformEvent_needsReset (s : State) (name : Nat) (c : Option CtxId) : (s.platformEvent name c).needsReset = s.needsReset := by
  unfold State.platformEvent; split
  · split <;> simp
  · rfl
@[simp] theorem platformEvent_walk (s : State) (name : Nat) (c : Option CtxId) : (s.platformEvent name c).walk = s.walk := by
  unfold State.platformEvent; split
  · split <;> simp
  · rfl
@[simp] theorem platformEvent_schedule (s : State) (name : Nat) (c : Option CtxId) : (s.platformEvent name c).schedule = s.schedule := by
  unfold State.platformEvent; split
  · split <;> simp
  · rfl
@[simp] theorem platformEvent_result (s : State) (name : Nat) (c : Option CtxId) : (s.platformEvent name c).result = s.result := by
  unfold State.platformEvent; split
  · split <;> simp
  · rfl
@[simp] theorem platformEvent_nextReq (s : State) (name : Nat) (c : Option CtxId) : (s.platformEvent name c).nextReq = s.nextReq := by
  unfold State.platformEvent; split
  · split <;> simp
  · rfl
@[simp] theorem platformEvent_clock (s : State) (name : Nat) (c : Option CtxId) : (s.platformEvent name c).clock = s.clock := by
  unfold State.platformEvent; split
  · split <;> simp
  · rfl
@[simp] theorem platformEvent_hist (s : State) (name : Nat) (c : Option CtxId) : (s.platformEvent name c).hist = s.hist := by
  unfold State.platformEvent; split
  · split <;> simp
  · rfl
@[simp] theorem platformEvent_breach (s : State) (name : Nat) (c : Option CtxId) : (s.platformEvent name c).breach = s.breach := by
  unfold State.platformEvent; split
  · split <;> simp
  · rfl
@[simp] theorem platformEvent_draws (s : State) (name : Nat) (c : Option CtxId) : (s.platformEvent name c).draws = s.draws := by
  unfold State.platformEvent; split
  · split <;> simp
  · rfl

/-! ### The record of a context -/

/-- Contexts depend on two fields only. -/
theorem ctx_congr {s t : State} (h1 : t.globalCaches = s.globalCaches) (h2 : t.ctxs = s.ctxs) (c : CtxId) : t.ctx c = s.ctx c := by
  cases c <;> simp [State.ctx, h1, h2]

@[simp] theorem drawn_ctx (s : State) (c : CtxId) : s.drawn.ctx c = s.ctx c := ctx_congr rfl rfl c
@[simp] theorem memoryFreed_ctx (s : State) (c : CtxId) : s.memoryFreed.ctx c = s.ctx c := ctx_congr rfl rfl c
@[simp] theorem physWrite_ctx (s : State) (w : Agent) (sp : Space) (pa : Word64) (b : List Byte) (c : CtxId) :
    (s.physWrite w sp pa b).ctx c = s.ctx c := ctx_congr rfl rfl c
@[simp] theorem nullTileSeen_ctx (s : State) (c : CtxId) : (nullTileSeen s).ctx c = s.ctx c := ctx_congr rfl rfl c
@[simp] theorem endNonRecoverable_ctx (wk : Walk) (s : State) (c : CtxId) : (endNonRecoverable wk s).ctx c = s.ctx c :=
  ctx_congr rfl rfl c

end Sys2Proof.Machine
end

