-- ==== Sys2Proof/Laws/Memory.lean ====
section
/-! SUPPORT. Keyed lists and memory: a read after a write, the canonical form, the bytes of a value. -/

namespace Sys2Proof.Machine

/-! ## Keyed lists -/

variable {α : Type}

theorem assocGet_put_same (l : List (Nat × α)) (a : Nat) (x : α) : assocGet (assocPut l a x) a = some x := by
  induction l with
  | nil => simp [assocPut, assocGet]
  | cons p r ih =>
    obtain ⟨k, v⟩ := p
    simp only [assocPut]
    split
    · simp [assocGet]
    · split
      · simp [assocGet]
      · next h => simp [assocGet, h, ih]

theorem assocGet_put_other (l : List (Nat × α)) {a b : Nat} (x : α) (h : a ≠ b) : assocGet (assocPut l a x) b = assocGet l b := by
  induction l with
  | nil => simp [assocPut, assocGet, h]
  | cons p r ih =>
    obtain ⟨k, v⟩ := p
    simp only [assocPut]
    split
    · simp [assocGet, h]
    · split
      · next hk => subst hk; simp [assocGet, h]
      · simp [assocGet, ih]

theorem assocGet_erase_other (l : List (Nat × α)) {a b : Nat} (h : a ≠ b) : assocGet (assocErase l a) b = assocGet l b := by
  induction l with
  | nil => rfl
  | cons p r ih =>
    obtain ⟨k, v⟩ := p
    simp only [assocErase]
    split
    · next hk => subst hk; simp [assocGet, h]
    · simp [assocGet, ih]

theorem assocAbove_mono {l : List (Nat × α)} {a b : Nat} (h : a ≤ b) (hb : assocAbove b l = true) : assocAbove a l = true := by
  cases l with
  | nil => rfl
  | cons p r => simp only [assocAbove, Bool.and_eq_true, decide_eq_true_eq] at *; exact ⟨by omega, hb.2⟩

theorem assocAbove_put {l : List (Nat × α)} {lo a : Nat} (x : α) (h : assocAbove lo l = true) (ha : lo < a) :
    assocAbove lo (assocPut l a x) = true := by
  induction l generalizing lo with
  | nil => simp [assocPut, assocAbove, ha]
  | cons p r ih =>
    obtain ⟨k, v⟩ := p
    simp only [assocAbove, Bool.and_eq_true, decide_eq_true_eq] at h
    simp only [assocPut]
    split
    · next hk => simp [assocAbove, ha, hk, h.2]
    · split
      · next hk => subst hk; simp [assocAbove, h.1, h.2]
      · next h1 h2 => simp [assocAbove, h.1, ih h.2 (by omega)]

/-- Writing a key keeps the canonical form. -/
theorem assocWf_put {l : List (Nat × α)} (a : Nat) (x : α) (h : assocWf l = true) : assocWf (assocPut l a x) = true := by
  cases l with
  | nil => rfl
  | cons p r =>
    obtain ⟨k, v⟩ := p
    simp only [assocWf] at h
    simp only [assocPut]
    split
    · next hk => simp [assocWf, assocAbove, hk, h]
    · split
      · next hk => subst hk; simpa [assocWf] using h
      · next h1 h2 => simpa [assocWf] using assocAbove_put x h (by omega)

theorem assocAbove_erase {l : List (Nat × α)} {lo : Nat} (a : Nat) (h : assocAbove lo l = true) :
    assocAbove lo (assocErase l a) = true := by
  induction l generalizing lo with
  | nil => rfl
  | cons p r ih =>
    obtain ⟨k, v⟩ := p
    simp only [assocAbove, Bool.and_eq_true, decide_eq_true_eq] at h
    simp only [assocErase]
    split
    · exact assocAbove_mono (by omega) h.2
    · simp [assocAbove, h.1, ih h.2]

/-- Erasing a key keeps the canonical form. -/
theorem assocWf_erase {l : List (Nat × α)} (a : Nat) (h : assocWf l = true) : assocWf (assocErase l a) = true := by
  cases l with
  | nil => rfl
  | cons p r =>
    obtain ⟨k, v⟩ := p
    simp only [assocWf] at h
    simp only [assocErase]
    split
    · cases r with
      | nil => rfl
      | cons q r' => simp only [assocAbove, Bool.and_eq_true] at h; simpa [assocWf] using h.2
    · simpa [assocWf] using assocAbove_erase a h

theorem assocAbove_map {β : Type} (f : Nat × α → Nat × β) (hf : ∀ p, (f p).1 = p.1) (l : List (Nat × α)) (lo : Nat) :
    assocAbove lo (l.map f) = assocAbove lo l := by
  induction l generalizing lo with
  | nil => rfl
  | cons p r ih => obtain ⟨k, v⟩ := p; simp [assocAbove, hf, ih]

/-- Changing the values keeps the canonical form. -/
theorem assocWf_map {β : Type} (f : Nat × α → Nat × β) (hf : ∀ p, (f p).1 = p.1) (l : List (Nat × α)) :
    assocWf (l.map f) = assocWf l := by
  cases l with
  | nil => rfl
  | cons p r => obtain ⟨k, v⟩ := p; simp [assocWf, hf, assocAbove_map f hf]

theorem assocGet_map (f : α → α) (l : List (Nat × α)) (a : Nat) :
    assocGet (l.map fun p => (p.1, f p.2)) a = (assocGet l a).map f := by
  induction l with
  | nil => rfl
  | cons p r ih => obtain ⟨k, v⟩ := p; simp only [List.map, assocGet]; split <;> simp [ih]

/-- What a written list holds: the new value, or something it held. -/
theorem mem_assocPut {l : List (Nat × α)} {a : Nat} {x : α} {p : Nat × α} (h : p ∈ assocPut l a x) : p = (a, x) ∨ p ∈ l := by
  induction l with
  | nil => simpa [assocPut] using h
  | cons q r ih =>
    obtain ⟨k, v⟩ := q
    simp only [assocPut] at h
    split at h
    · simpa using h
    · split at h
      · rcases List.mem_cons.1 h with h | h
        · exact .inl h
        · exact .inr (List.mem_cons_of_mem _ h)
      · rcases List.mem_cons.1 h with h | h
        · exact .inr (by simp [h])
        · exact (ih h).imp id (List.mem_cons_of_mem _)

theorem mem_assocErase {l : List (Nat × α)} {a : Nat} {p : Nat × α} (h : p ∈ assocErase l a) : p ∈ l := by
  induction l with
  | nil => exact h
  | cons q r ih =>
    obtain ⟨k, v⟩ := q
    simp only [assocErase] at h
    split at h
    · exact List.mem_cons_of_mem _ h
    · rcases List.mem_cons.1 h with h | h
      · simp [h]
      · exact List.mem_cons_of_mem _ (ih h)

/-! ## Bytes of a value -/

@[simp] theorem length_leBytes (n v : Nat) : (leBytes n v).length = n := by
  induction n generalizing v with
  | zero => rfl
  | succ n ih => simp [leBytes, ih]

theorem leNat_leBytes (n v : Nat) : leNat (leBytes n v) = v % 256 ^ n := by
  induction n generalizing v with
  | zero => simp [leBytes, leNat, Nat.mod_one]
  | succ n ih =>
    have h : (256 : Nat) ^ (n + 1) = 256 * 256 ^ n := by ring
    simp only [leBytes, leNat, ih, BitVec.toNat_ofNat, h, Nat.mod_mul]

theorem getElem?_leBytes (n v i : Nat) (h : i < n) : (leBytes n v)[i]? = some (BitVec.ofNat 8 (v / 256 ^ i)) := by
  induction n generalizing v i with
  | zero => omega
  | succ n ih =>
    cases i with
    | zero => simp [leBytes]
    | succ i =>
      simp only [leBytes, List.getElem?_cons_succ]
      rw [ih _ _ (by omega), Nat.div_div_eq_div_mul, Nat.pow_succ, Nat.mul_comm]

theorem leNat_lt (l : List Byte) : leNat l < 256 ^ l.length := by
  induction l with
  | nil => simp [leNat]
  | cons b r ih =>
    have := b.isLt
    simp only [leNat, List.length_cons, Nat.pow_succ]
    omega

/-! ## Memory -/

/-- A space's cells after a write of cells. -/
theorem cells_withCells (m : Memory) (sp sp' : Space) (l : List Host.Cell) :
    (m.withCells sp l).cells sp' = if sp' = sp then l else m.cells sp' := by
  cases sp <;> cases sp' <;> rfl

theorem get_put (m : Memory) (sp sp' : Space) (a b : Nat) (x : Byte) :
    (m.put sp a x).get sp' b = if sp' = sp ∧ b = a then some x else m.get sp' b := by
  unfold Memory.put Memory.get
  rw [cells_withCells]
  by_cases h : sp' = sp
  · subst h
    by_cases h2 : b = a
    · subst h2; simp [assocGet_put_same]
    · simp [h2, assocGet_put_other _ _ (Ne.symm h2)]
  · simp [h]

/-- What an address holds after consecutive bytes were written. -/
theorem get_putBytes (m : Memory) (sp sp' : Space) (a b : Nat) (l : List Byte) :
    (m.putBytes sp a l).get sp' b =
      if sp' = sp ∧ a ≤ b ∧ b < a + l.length then l[b - a]? else m.get sp' b := by
  induction l generalizing m a with
  | nil => simp only [Memory.putBytes, List.length_nil]; split <;> [omega; rfl]
  | cons x r ih =>
    simp only [Memory.putBytes, ih, get_put, List.length_cons]
    by_cases hsp : sp' = sp
    · by_cases hb : b = a
      · subst hb; simp [hsp]
      · by_cases hin : a + 1 ≤ b ∧ b < a + 1 + r.length
        · have : b - a = (b - (a + 1)) + 1 := by omega
          rw [if_pos ⟨hsp, hin⟩, if_pos ⟨hsp, by omega, by omega⟩, this, List.getElem?_cons_succ]
        · rw [if_neg (by tauto), if_neg (by tauto), if_neg (by omega)]
    · simp [hsp]

/-- A byte outside the written range reads as before. -/
theorem byteAt_putBytes_outside (m : Memory) (e : Nat) (sp sp' : Space) (a b : Nat) (l : List Byte)
    (h : ¬ (sp' = sp ∧ a ≤ b ∧ b < a + l.length)) : (m.putBytes sp a l).byteAt e sp' b = m.byteAt e sp' b := by
  unfold Memory.byteAt; rw [get_putBytes, if_neg h]

/-- A byte inside the written range reads as written. -/
theorem byteAt_putBytes_inside (m : Memory) (e : Nat) (sp : Space) (a i : Nat) (l : List Byte) (x : Byte)
    (h : l[i]? = some x) : (m.putBytes sp a l).byteAt e sp (a + i) = x := by
  have hi : i < l.length := by
    by_contra hc
    rw [List.getElem?_eq_none (by omega)] at h
    simp at h
  unfold Memory.byteAt
  rw [get_putBytes, if_pos ⟨rfl, by omega, by omega⟩, Nat.add_sub_cancel_left, h]

@[simp] theorem length_bytes (m : Memory) (e : Nat) (sp : Space) (a n : Nat) : (m.bytes e sp a n).length = n := by
  induction n generalizing a with
  | zero => rfl
  | succ n ih => simp [Memory.bytes, ih]

/-- Equal bytes give equal values. -/
theorem bytes_congr {m m' : Memory} {e e' : Nat} {sp : Space} {a n : Nat}
    (h : ∀ i, i < n → m'.byteAt e' sp (a + i) = m.byteAt e sp (a + i)) : m'.bytes e' sp a n = m.bytes e sp a n := by
  induction n generalizing a with
  | zero => rfl
  | succ n ih =>
    have h0 := h 0 (by omega)
    simp only [Nat.add_zero] at h0
    simp only [Memory.bytes, h0]
    rw [ih fun i hi => by have := h (i + 1) (by omega); rwa [show a + (i + 1) = a + 1 + i by omega] at this]

/-- Reading back what was written. -/
theorem bytes_putBytes_same (m : Memory) (e : Nat) (sp : Space) (a : Nat) (l : List Byte) :
    (m.putBytes sp a l).bytes e sp a l.length = l := by
  apply List.ext_getElem?
  intro i
  by_cases hi : i < l.length
  · have key : ∀ (m : Memory) (a n i : Nat), i < n → (m.bytes e sp a n)[i]? = some (m.byteAt e sp (a + i)) := by
      intro m a n
      induction n generalizing a with
      | zero => intro i h; omega
      | succ n ih =>
        intro i h
        cases i with
        | zero => simp [Memory.bytes]
        | succ i => simp only [Memory.bytes, List.getElem?_cons_succ]; rw [ih _ _ (by omega), show a + 1 + i = a + (i + 1) by omega]
    rw [key _ _ _ _ hi, List.getElem?_eq_getElem hi]
    exact congrArg some (byteAt_putBytes_inside m e sp a i l _ (List.getElem?_eq_getElem hi))
  · rw [List.getElem?_eq_none (by simp; omega), List.getElem?_eq_none (by omega)]

/-- A write of one byte keeps the canonical form. -/
theorem wf_put {m : Memory} (sp : Space) (a : Nat) (b : Byte) (h : m.wf = true) : (m.put sp a b).wf = true := by
  simp only [Memory.wf, Bool.and_eq_true] at h
  cases sp <;> simp only [Memory.put, Memory.withCells, Memory.cells, Memory.wf, Bool.and_eq_true]
  · exact ⟨assocWf_put a b h.1, h.2⟩
  · exact ⟨h.1, assocWf_put a b h.2⟩

/-- A write of bytes keeps the canonical form. -/
theorem wf_putBytes {m : Memory} (sp : Space) (a : Nat) (l : List Byte) (h : m.wf = true) : (m.putBytes sp a l).wf = true := by
  induction l generalizing m a with
  | nil => exact h
  | cons x r ih => exact ih _ (wf_put sp a x h)

/-- The stores of a spurious cycle keep the canonical form. -/
theorem wf_spurious {m : Memory} (p : Params) (l : List (Space × Word64 × Byte)) (h : m.wf = true) :
    (m.spurious p l).wf = true := by
  unfold Memory.spurious
  induction l generalizing m with
  | nil => exact h
  | cons x r ih => exact ih (wf_put _ _ _ h)

/-- The memory after reset is in canonical form. -/
theorem wf_reset : State.reset.mem.wf = true := rfl

end Sys2Proof.Machine
end

