-- ==== Sys2Proof/Laws/Changes.lean ====
section
/-! SUPPORT. Everything a request can do to the state, said once: each operation of the walker ends, where it answers a next
state, after a sequence of the elementary changes below. A claim that every elementary change keeps holds of every request. -/

namespace Sys2Proof.Machine

/-- An elementary change made in the course of request `q`. -/
inductive Change (q : Request) : State → State → Prop where
  | draw (s : State) (n : Nat) : Change q s { s with draws := s.draws + n }
  | walk (s : State) (w : Option Walk) (h : ∀ wk, w = some wk → wk.req = q) : Change q s { s with walk := w }
  | result (s : State) (r : Result) : Change q s { s with result := r }
  | tlb (s : State) (e : TlbEntry) : Change q s (s.fillTlb q.ctx e)
  | trTlb (s : State) (e : TrTlbEntry) : Change q s (s.fillTrTlb q.ctx e)
  | pml4 (s : State) (page : Word64) : Change q s (s.fillPml4 q.ctx page)
  | irq (s : State) : Change q s { s with irqInvalidTile := true }
  | halt (s : State) (h : Halted) (hq : h.req = q) : Change q s { s with halted := assocPut s.halted q.id h }
  | nullcnt (s : State) (v : Word32) : Change q s { s with nullcnt := v }
  | needsReset (s : State) : Change q s { s with needsReset := true }
  | store (s : State) (sp : Space) (pa : Word64) (v : Nat) (hv : q.value = some v)
      (hg : inGgtt s.cfg sp pa.toNat q.n = false) : Change q s (s.physWrite (.engine q.agent) sp pa (leBytes q.n v))
  | spurious (s : State) : Change q s { s.memoryFreed with needsReset := true }

/-- A sequence of elementary changes. -/
abbrev Changes (q : Request) : State → State → Prop := Relation.ReflTransGen (Change q)

/-- An outcome that, where it is a next state, is one that elementary changes lead to. -/
def Ends (q : Request) (s : State) (o : Out) : Prop := ∀ t, o = .next t → Changes q s t

variable {q : Request} {s0 s : State} {wk : Walk}

theorem Ends.next (h : Changes q s0 s) : Ends q s0 (.next s) := by intro t ht; cases ht; exact h
theorem Ends.refused (r : Refusal) : Ends q s0 (.refused r) := by intro t ht; cases ht
theorem Ends.fault (f : Fault) : Ends q s0 (.fault f) := by intro t ht; cases ht

/-- A claim about two states that is reflexive and that every elementary change extends holds of a sequence. -/
theorem Changes.rec_on {P : State → State → Prop} (h : Changes q s0 s) (refl : P s0 s0)
    (step : ∀ a b, Change q a b → P s0 a → P s0 b) : P s0 s := by
  induction h with
  | refl => exact refl
  | tail _ hab ih => exact step _ _ hab ih

theorem Changes.setWalk (h : Changes q s0 s) (w : Option Walk) (hw : ∀ wk, w = some wk → wk.req = q) :
    Changes q s0 { s with walk := w } := h.tail (.walk s w hw)

/-! ## The end of a request -/

theorem endNonRecoverable_changes (h : Changes q s0 s) : Changes q s0 (endNonRecoverable wk s) :=
  (((h.tail (.walk s none (by simp))).tail (.needsReset _)).tail (.result _ _)).tail (.draw _ 1)

theorem endSpurious_changes (h : Changes q s0 s) : Changes q s0 (endSpurious wk s) := by
  unfold endSpurious
  split
  · exact (((h.tail (.spurious s)).tail (.walk _ none (by simp))).tail (.result _ _)).tail (.draw _ 1)
  · exact endNonRecoverable_changes h

theorem complete_changes (r : Result) (h : Changes q s0 s) : Ends q s0 (complete wk r s) := by
  unfold complete
  split
  · exact .next (endSpurious_changes h)
  · exact .next ((h.tail (.walk s none (by simp))).tail (.result _ r))

theorem refuseWalk_changes (why : Refusal) (h : Changes q s0 s) : Ends q s0 (refuseWalk wk why s) := by
  unfold refuseWalk
  split
  · exact .next (endSpurious_changes h)
  · exact .refused why

theorem nonRecoverable_changes (hw : wk.req = q) (h : Changes q s0 s) : Changes q s0 (nonRecoverable wk s) := by
  unfold nonRecoverable
  split
  · exact endNonRecoverable_changes h
  · exact (h.tail (.spurious s)).tail (.walk _ _ (by rintro _ ⟨⟩; exact hw))

theorem raiseFault_changes (c : Cause) (hw : wk.req = q) (h : Changes q s0 s) : Ends q s0 (raiseFault wk c s) := by
  unfold raiseFault
  split
  · apply Ends.next
    subst hw
    exact ((h.tail (.walk s none (by simp))).tail (.halt _ _ rfl)).tail (.result _ _)
  · exact .next (nonRecoverable_changes hw h)

/-! ## Choices and reads -/

theorem choose_changes {α : Type} (l : List α) (h : Changes q s0 s) : Changes q s0 (s.choose l).2 := by
  unfold State.choose; split
  · exact h
  · exact h.tail (.draw s 1)

theorem readTable_changes (c : CtxId) (sp : Space) (pa : Word64) (n : Nat) (h : Changes q s0 s) :
    Changes q s0 (s.readTable c sp pa n).2 := by
  unfold State.readTable; dsimp only
  split
  · exact h.tail (.draw s 1)
  · exact h

theorem readData_changes (e : Engine) (c : CtxId) (sp : Space) (pa : Word64) (n : Nat) (h : Changes q s0 s) :
    Changes q s0 (s.readData e c sp pa n).2 := by
  unfold State.readData; dsimp only
  split
  · exact h
  · exact h.tail (.draw s n)

theorem pickRegs_changes (c : CtxId) (h : Changes q s0 s) : Changes q s0 (s.pickRegs c).2 := by
  unfold State.pickRegs; dsimp only
  split
  · exact h
  · exact h.tail (.draw s 6)

/-! ## The data access -/

theorem nullTile_changes (h : Changes q s0 s) : Ends q s0 (nullTile wk s) :=
  complete_changes _ ((h.tail (.nullcnt s (Config.nullTileCount s.draws))).tail (.draw _ 1))

theorem invalidTile_changes (h : Changes q s0 s) : Ends q s0 (invalidTile wk s) := complete_changes _ (h.tail (.irq s))

theorem accessPhys_changes (sp : Space) (pa : Word64) (w : Bool) (hw : wk.req = q) (h : Changes q s0 s) :
    Ends q s0 (accessPhys wk sp pa w s) := by
  unfold accessPhys
  split
  · exact complete_changes _ (readData_changes _ _ _ _ _ h)
  · next v hv =>
    split
    · exact raiseFault_changes _ hw h
    · split
      · exact refuseWalk_changes _ h
      · next hg =>
        subst hw
        exact complete_changes _ (h.tail (.store s sp pa v hv (by simpa using hg)))

theorem accessNullPage_changes (w : Bool) (hw : wk.req = q) (h : Changes q s0 s) : Ends q s0 (accessNullPage wk w s) := by
  unfold accessNullPage
  split
  · exact raiseFault_changes _ hw h
  · exact complete_changes _ h

theorem ggttDone_changes (out : Mapping) (hw : wk.req = q) (h : Changes q s0 s) : Ends q s0 (ggttDone wk out s) := by
  unfold ggttDone
  split
  · exact accessPhys_changes _ _ _ hw h
  · exact accessNullPage_changes _ hw h

theorem ppgttDone_changes (z : PageSize) (out : Mapping) (nested : Bool) (deps : List Dep) (hw : wk.req = q) (h : Changes q s0 s) :
    Ends q s0 (ppgttDone wk z out nested deps s) := by
  unfold ppgttDone
  split
  · split
    · exact refuseWalk_changes _ h
    · split
      · exact accessPhys_changes _ _ _ hw h
      · exact .next (h.tail (.walk s _ (by rintro _ ⟨⟩; exact hw)))
  · split
    · exact accessNullPage_changes _ hw h
    · exact refuseWalk_changes _ h

/-! ## The start of a walk -/

theorem beginGgtt_changes (hw : wk.req = q) (h : Changes q s0 s) : Ends q s0 (beginGgtt wk s) := by
  unfold beginGgtt State.lookupTlb; dsimp only
  split
  · exact ggttDone_changes _ hw (choose_changes _ h)
  · split
    · exact refuseWalk_changes _ (choose_changes _ h)
    · split
      · exact refuseWalk_changes _ (choose_changes _ h)
      · exact .next ((choose_changes _ h).tail (.walk _ _ (by rintro _ ⟨⟩; exact hw)))

theorem beginPpgtt_changes (hw : wk.req = q) (h : Changes q s0 s) : Ends q s0 (beginPpgtt wk s) := by
  unfold beginPpgtt State.lookupTlb; dsimp only
  split
  · exact ppgttDone_changes _ _ _ _ hw (choose_changes _ h)
  · split
    · exact refuseWalk_changes _ (choose_changes _ h)
    · split
      · exact .fault _
      · split
        · exact refuseWalk_changes _ (choose_changes _ h)
        · subst hw
          exact .next (((choose_changes _ h).tail (.pml4 _ _)).tail (.walk _ _ (by rintro _ ⟨⟩; rfl)))

theorem tableRead_changes (l : TrLevel) (a : Word64) (hw : wk.req = q) (h : Changes q s0 s) : Ends q s0 (tableRead wk l a s) := by
  unfold tableRead
  split
  · exact refuseWalk_changes _ h
  · exact refuseWalk_changes _ h
  · exact beginPpgtt_changes (by exact hw) h

theorem tileDone_changes (o : TileOut) (hw : wk.req = q) (h : Changes q s0 s) : Ends q s0 (tileDone wk o s) := by
  unfold tileDone tileMapped
  split
  · exact beginPpgtt_changes (by exact hw) h
  · exact nullTile_changes h
  · exact invalidTile_changes h

theorem beginTrtt_changes (hw : wk.req = q) (h : Changes q s0 s) : Ends q s0 (beginTrtt wk s) := by
  unfold beginTrtt State.lookupTrTlb; dsimp only
  split
  · exact tileDone_changes _ hw (choose_changes _ h)
  · split
    · exact refuseWalk_changes _ (choose_changes _ h)
    · split
      · exact refuseWalk_changes _ (choose_changes _ h)
      · exact tableRead_changes _ _ hw (choose_changes _ h)

theorem beginTranslate_changes (h : Changes q s0 s) : Ends q s0 (beginTranslate q s) := by
  unfold beginTranslate; dsimp only
  have h1 := pickRegs_changes q.ctx h
  split
  · split
    · exact .refused _
    · exact beginGgtt_changes rfl h1
  · split
    · split
      · exact .refused _
      · split
        · exact beginTrtt_changes rfl h1
        · exact .refused _
      · exact beginPpgtt_changes rfl h1
    · exact beginPpgtt_changes rfl h1
  · exact .refused _
  · exact .refused _

/-! ## The entries -/

theorem descend_changes (next : Pos) (base : Word64) (k : BitVec 9) (rw : Bool) (hw : wk.req = q) (h : Changes q s0 s) :
    Ends q s0 (descend wk next base k rw s) := by
  unfold descend
  split
  · exact refuseWalk_changes _ h
  · refine .next (h.tail (.walk s _ ?_))
    rintro _ ⟨⟩
    unfold Walk.noted; split <;> exact hw

theorem leaf_changes (z : PageSize) (base : Word64) (sp : Space) (mt : BitVec 3) (f : LeafBits) (hw : wk.req = q)
    (h : Changes q s0 s) : Ends q s0 (leaf wk z base sp mt f s) := by
  unfold leaf; dsimp only
  refine ppgttDone_changes _ _ _ _ (by unfold Walk.noted; split <;> exact hw) ?_
  subst hw
  exact h.tail (.tlb s _)

theorem tileFound_changes (o : TileOut) (hw : wk.req = q) (h : Changes q s0 s) : Ends q s0 (tileFound wk o s) := by
  unfold tileFound; dsimp only
  refine tileDone_changes _ (by exact hw) ?_
  subst hw
  exact h.tail (.trTlb s _)

theorem trDescend_changes (b : Bool) (l : TrLevel) (a : Word64) (hw : wk.req = q) (h : Changes q s0 s) :
    Ends q s0 (trDescend wk b l a s) := by
  unfold trDescend
  split
  · exact refuseWalk_changes _ h
  · exact tableRead_changes _ _ (by exact hw) h

/-- The walk that an entry executes in. -/
theorem walkAt_eq {pos : Pos} : s.walkAt pos = some wk ↔ s.walk = some wk ∧ wk.pos = pos := by
  unfold State.walkAt
  cases s.walk with
  | none => simp
  | some w =>
    by_cases hp : w.pos = pos
    · simp only [hp, if_true, Option.some.injEq]
      constructor
      · rintro rfl; exact ⟨rfl, hp⟩
      · exact fun h => h.1
    · simp only [hp, if_false, Option.some.injEq, false_iff, reduceCtorEq]
      rintro ⟨rfl, h⟩
      exact hp h

/-- Whatever entry is executed, the state it ends in is reached by elementary changes of the walk's request. -/
theorem execEntry_changes (i : Instr) (hs : s.walk = some wk) (hw : wk.req = q) (h : Changes q s0 s) :
    Ends q s0 (execEntry i s) := by
  have key : ∀ (pos : Pos) (f : Walk → Out), Ends q s0 (f wk) →
      Ends q s0 (match s.walkAt pos with | none => .refused .entryOutOfPlace | some w => f w) := by
    intro pos f hf
    cases hp : s.walkAt pos with
    | none => exact .refused _
    | some w =>
      have := (walkAt_eq.1 hp).1
      rw [hs] at this
      cases this
      exact hf
  cases i with
  | ggttPte a fn =>
    refine key .ggtt _ (ggttDone_changes _ (by unfold Walk.noted; split <;> exact hw) ?_)
    subst hw; exact h.tail (.tlb s _)
  | pml4e a rw => exact key .pml4 _ (descend_changes _ _ _ _ hw h)
  | pdpePd a rw => exact key .pdp _ (descend_changes _ _ _ _ hw h)
  | pdpe1gb a lm f => exact key .pdp _ (leaf_changes _ _ _ _ _ hw h)
  | pdePt a x rw =>
    refine key .pd _ ?_
    split <;> exact descend_changes _ _ _ _ hw h
  | pde2mb a lm f => exact key .pd _ (leaf_changes _ _ _ _ _ hw h)
  | pte64kb a lm f => exact key .pt64k _ (leaf_changes _ _ _ _ _ hw h)
  | pte4kb a f => exact key .pt4k _ (leaf_changes _ _ _ _ _ hw h)
  | notPresent =>
    simp only [execEntry, execNotPresent, hs]
    split
    · exact .refused _
    · exact raiseFault_changes _ hw h
  | trttL3Pointer a => exact key .trL3 _ (trDescend_changes _ _ _ hw h)
  | trttL3Null => exact key .trL3 _ (tileFound_changes _ hw h)
  | trttL3Invalid => exact key .trL3 _ (tileFound_changes _ hw h)
  | trttL3NullAndInvalid => exact key .trL3 _ (refuseWalk_changes _ h)
  | trttL2Pointer a => exact key .trL2 _ (trDescend_changes _ _ _ hw h)
  | trttL2Null => exact key .trL2 _ (tileFound_changes _ hw h)
  | trttL2Invalid => exact key .trL2 _ (tileFound_changes _ hw h)
  | trttL2NullAndInvalid => exact key .trL2 _ (refuseWalk_changes _ h)
  | trttL1 a =>
    refine key .trL1 _ ?_
    split
    · split
      · exact refuseWalk_changes _ h
      · exact tileFound_changes _ hw h
    · exact tileFound_changes _ hw h
    · exact tileFound_changes _ hw h
  | _ => exact .refused _

/-! ## The walk -/

theorem fetch_changes (h : Changes q s0 s) : Changes q s0 (fetch wk s).2 := by
  unfold fetch fetchWord; dsimp only
  split
  · exact h
  · split
    · split
      · exact h
      · exact readTable_changes _ _ _ _ h
    · exact h
    all_goals exact readTable_changes _ _ _ _ h

theorem readTable_walk (c : CtxId) (sp : Space) (pa : Word64) (n : Nat) : (s.readTable c sp pa n).2.walk = s.walk := by
  unfold State.readTable; dsimp only
  split <;> rfl

/-- A fetch leaves the walk as it is. -/
theorem fetch_walk : (fetch wk s).2.walk = s.walk := by
  unfold fetch fetchWord; dsimp only
  split
  · rfl
  · split
    · split
      · rfl
      · exact readTable_walk _ _ _ _
    · rfl
    all_goals exact readTable_walk _ _ _ _

theorem walkStep_changes (hs : s.walk = some wk) (hw : wk.req = q) (h : Changes q s0 s) : Ends q s0 (walkStep wk s) := by
  unfold walkStep; dsimp only
  exact execEntry_changes _ (by rw [fetch_walk, hs]) hw (fetch_changes h)

/-- Elementary changes of a request leave no walk of another request. -/
theorem Changes.walk_req (h : Changes q s0 s) (h0 : ∀ wk, s0.walk = some wk → wk.req = q) :
    ∀ wk, s.walk = some wk → wk.req = q := by
  refine Changes.rec_on (P := fun _ t => ∀ wk, t.walk = some wk → wk.req = q) h h0 ?_
  intro a b hab ih
  cases hab <;> simpa using ‹_›

theorem runWalk_changes (k : Nat) (h : Changes q s0 s) (h0 : ∀ wk, s0.walk = some wk → wk.req = q) :
    Ends q s0 (runWalk k s) := by
  induction k generalizing s with
  | zero => exact .next h
  | succ k ih =>
    unfold runWalk
    split
    · exact .next h
    · next wk hs =>
      split
      · next t ht => exact ih (walkStep_changes hs (h.walk_req h0 _ hs) h t ht)
      · exact .fault _
      · exact .refused _

theorem finish_changes {o : Out} (h0 : ∀ wk, s0.walk = some wk → wk.req = q) (h : Ends q s0 o) : Ends q s0 (finish o) := by
  unfold finish
  split
  · next t => exact runWalk_changes _ (h t rfl) h0
  · exact .fault _
  · exact .refused _

/-- Everything a request does from its admission to its end is a sequence of elementary changes. -/
theorem runRequest_changes (h0 : ∀ wk, s.walk = some wk → wk.req = q) : Ends q s (runRequest q s) := by
  unfold runRequest
  split
  · exact .refused _
  · exact finish_changes h0 (beginTranslate_changes .refl)

end Sys2Proof.Machine
end

