-- ==== Sys2Proof/Laws/Contexts.lean ====
section
/-! SUPPORT. The record of a context after each update that can touch one. -/

namespace Sys2Proof.Machine

variable (s : State) (c : CtxId)

/-- The context a cache update is for keeps everything but its hidden state. -/
theorem ctx_setCaches_same (h : Caches) : (s.setCaches c h).ctx c = { s.ctx c with caches := h } := by
  cases c with
  | global => rfl
  | proc k => simp [State.setCaches, State.ctx, assocGet_put_same]

/-- A cache update leaves every other context as it is. -/
theorem ctx_setCaches_other {c' : CtxId} (h : Caches) (hc : c' ≠ c) : (s.setCaches c h).ctx c' = s.ctx c' := by
  cases c with
  | global => cases c' <;> simp_all [State.setCaches, State.ctx]
  | proc k =>
    cases c' with
    | global => rfl
    | proc j =>
      have hj : k ≠ j := fun e => hc (by rw [e])
      simp [State.setCaches, State.ctx, assocGet_put_other _ _ hj]

/-- A process context's record after it is replaced. -/
theorem ctx_setCtx_same (k : Nat) (x : Ctx) : (s.setCtx (.proc k) x).ctx (.proc k) = x := by
  simp [State.setCtx, State.ctx, assocGet_put_same]

/-- Replacing a context's record leaves every other context as it is. -/
theorem ctx_setCtx_other {c' : CtxId} (x : Ctx) (hc : c' ≠ c) : (s.setCtx c x).ctx c' = s.ctx c' := by
  cases c with
  | global => cases c' <;> simp_all [State.setCtx, State.ctx]
  | proc k =>
    cases c' with
    | global => rfl
    | proc j =>
      have hj : k ≠ j := fun e => hc (by rw [e])
      simp [State.setCtx, State.ctx, assocGet_put_other _ _ hj]

/-- A context whose registers are written: the new registers, and at most one more old copy. -/
theorem ctx_setRegs_same (k : Nat) (r : TrRegs) : ∃ h, (s.setRegs k r).ctx (.proc k) =
    { s.ctx (.proc k) with tr := r, caches := { (s.ctx (.proc k)).caches with trOld := h } } ∧
      (h = (s.ctx (.proc k)).caches.trOld ∨ h = (s.ctx (.proc k)).tr :: (s.ctx (.proc k)).caches.trOld) := by
  unfold State.setRegs; dsimp only
  split
  · exact ⟨_, ctx_setCtx_same s k _, .inl rfl⟩
  · exact ⟨_, (ctx_congr rfl rfl _).trans (ctx_setCtx_same s k _), .inr rfl⟩

/-- A write of a context's registers leaves every other context as it is. -/
theorem ctx_setRegs_other {c' : CtxId} (k : Nat) (r : TrRegs) (hc : c' ≠ .proc k) : (s.setRegs k r).ctx c' = s.ctx c' := by
  unfold State.setRegs; dsimp only
  split
  · exact ctx_setCtx_other s _ _ hc
  · exact (ctx_congr rfl rfl _).trans (ctx_setCtx_other s _ _ hc)

/-- After an event of the platform a context has the values it had, and what it has cached is as before or nothing. -/
theorem ctx_platformEvent (name : Nat) (e : Option CtxId) : ∃ h, (s.platformEvent name e).ctx c = { s.ctx c with caches := h } ∧
    (h = (s.ctx c).caches ∨ h = s.flushed ∨ h = Caches.empty) := by
  unfold State.platformEvent
  split
  · split
    · next d =>
      by_cases hd : c = d
      · subst hd; exact ⟨_, ctx_setCaches_same s c _, .inr (.inl rfl)⟩
      · exact ⟨_, ctx_setCaches_other s d _ hd, .inl rfl⟩
    · cases c with
      | global => exact ⟨s.flushed, rfl, .inr (.inl rfl)⟩
      | proc k =>
        have h := assocGet_map (fun x : Ctx => { x with caches := s.flushed }) s.ctxs k
        simp only [State.ctx, h]
        cases assocGet s.ctxs k with
        | some x => exact ⟨_, rfl, .inr (.inl rfl)⟩
        | none => exact ⟨Caches.empty, rfl, .inr (.inr rfl)⟩
  · exact ⟨_, rfl, .inl rfl⟩

/-- A context after its TLB is filled. -/
theorem ctx_fillTlb_same (e : TlbEntry) : ∃ l, (s.fillTlb c e).ctx c =
    { s.ctx c with caches := { (s.ctx c).caches with tlb := l } } ∧ ∀ x, x ∈ l ↔ x = e ∨ x ∈ (s.ctx c).caches.tlb := by
  unfold State.fillTlb; dsimp only
  split
  · next h =>
    refine ⟨_, rfl, fun x => ⟨.inr, ?_⟩⟩
    rintro (rfl | h')
    · exact List.contains_iff_mem.mp h
    · exact h'
  · exact ⟨e :: (s.ctx c).caches.tlb, by rw [ctx_setCaches_same], fun x => List.mem_cons⟩

theorem ctx_fillTlb_other {c' : CtxId} (e : TlbEntry) (hc : c' ≠ c) : (s.fillTlb c e).ctx c' = s.ctx c' := by
  unfold State.fillTlb; dsimp only
  split
  · rfl
  · exact ctx_setCaches_other _ _ _ hc

/-- A context after its TR TLB is filled. -/
theorem ctx_fillTrTlb_same (e : TrTlbEntry) : ∃ l, (s.fillTrTlb c e).ctx c =
    { s.ctx c with caches := { (s.ctx c).caches with trTlb := l } } ∧ ∀ x, x ∈ l ↔ x = e ∨ x ∈ (s.ctx c).caches.trTlb := by
  unfold State.fillTrTlb; dsimp only
  split
  · next h =>
    refine ⟨_, rfl, fun x => ⟨.inr, ?_⟩⟩
    rintro (rfl | h')
    · exact List.contains_iff_mem.mp h
    · exact h'
  · exact ⟨e :: (s.ctx c).caches.trTlb, by rw [ctx_setCaches_same], fun x => List.mem_cons⟩

theorem ctx_fillTrTlb_other {c' : CtxId} (e : TrTlbEntry) (hc : c' ≠ c) : (s.fillTrTlb c e).ctx c' = s.ctx c' := by
  unfold State.fillTrTlb; dsimp only
  split
  · rfl
  · exact ctx_setCaches_other _ _ _ hc

/-- A context after its PML4 cache is filled: what was cached stays, else the page's entries are there. -/
theorem ctx_fillPml4_same (page : Word64) : (s.fillPml4 c page).ctx c =
    { s.ctx c with caches := { (s.ctx c).caches with
        pml4c := some ((s.ctx c).caches.pml4c.getD { page := page, entries := s.pml4Entries c page }) } } := by
  unfold State.fillPml4; dsimp only
  split
  · next x hx => rw [hx]; simp only [Option.getD_some]; rw [← hx]
  · next hx =>
    refine (ctx_congr (s := s.setCaches c { (s.ctx c).caches with
      pml4c := some { page := page, entries := s.pml4Entries c page } }) rfl rfl c).trans ?_
    rw [ctx_setCaches_same, hx]; rfl

theorem ctx_fillPml4_other {c' : CtxId} (page : Word64) (hc : c' ≠ c) : (s.fillPml4 c page).ctx c' = s.ctx c' := by
  unfold State.fillPml4; dsimp only
  split
  · rfl
  · exact (ctx_congr rfl rfl _).trans (ctx_setCaches_other _ _ _ hc)

end Sys2Proof.Machine
end

