-- ==== Sys2Proof/Laws/PerInstr.lean ====
section
/-! SUPPORT. Families of lemmas with one member per constructor of Instr. -/

namespace Sys2Proof.Laws.EncodeLength

open Sys2Proof

/-- The bytes of an entry fill the entry size of every position that reads its format (20_memory R78, 30_encoding R128); an operation,
which no position reads, has none (30_encoding R110). -/
def Statement (i : Instr) : Prop :=
  (∀ pos ∈ positions i, (encode i).length = entryBytes pos) ∧ (positions i = [] → encode i = [])

theorem ggttPte (a : BitVec 34) (fn : BitVec 3) : Statement (.ggttPte a fn) := by
  simp [Statement, positions, encode, encodeWord, leBytes, entryBytes]

theorem pml4e (a : BitVec 34) (rw : Bool) : Statement (.pml4e a rw) := by
  simp [Statement, positions, encode, encodeWord, leBytes, entryBytes]

theorem pdpePd (a : BitVec 34) (rw : Bool) : Statement (.pdpePd a rw) := by
  simp [Statement, positions, encode, encodeWord, leBytes, entryBytes]

theorem pdpe1gb (a : BitVec 16) (lm : Bool) (f : LeafBits) : Statement (.pdpe1gb a lm f) := by
  simp [Statement, positions, encode, encodeWord, leBytes, entryBytes]

theorem pdePt (a : BitVec 34) (x rw : Bool) : Statement (.pdePt a x rw) := by
  simp [Statement, positions, encode, encodeWord, leBytes, entryBytes]

theorem pde2mb (a : BitVec 25) (lm : Bool) (f : LeafBits) : Statement (.pde2mb a lm f) := by
  simp [Statement, positions, encode, encodeWord, leBytes, entryBytes]

theorem pte64kb (a : BitVec 30) (lm : Bool) (f : LeafBits) : Statement (.pte64kb a lm f) := by
  simp [Statement, positions, encode, encodeWord, leBytes, entryBytes]

theorem pte4kb (a : BitVec 34) (f : LeafBits) : Statement (.pte4kb a f) := by
  simp [Statement, positions, encode, encodeWord, leBytes, entryBytes]

theorem notPresent : Statement (.notPresent) := by
  simp [Statement, positions, encode, encodeWord, leBytes, entryBytes]

theorem trttL3Pointer (a : BitVec 36) : Statement (.trttL3Pointer a) := by
  simp [Statement, positions, encode, encodeWord, leBytes, entryBytes]

theorem trttL3Null : Statement (.trttL3Null) := by
  simp [Statement, positions, encode, encodeWord, leBytes, entryBytes]

theorem trttL3Invalid : Statement (.trttL3Invalid) := by
  simp [Statement, positions, encode, encodeWord, leBytes, entryBytes]

theorem trttL3NullAndInvalid : Statement (.trttL3NullAndInvalid) := by
  simp [Statement, positions, encode, encodeWord, leBytes, entryBytes]

theorem trttL2Pointer (a : BitVec 36) : Statement (.trttL2Pointer a) := by
  simp [Statement, positions, encode, encodeWord, leBytes, entryBytes]

theorem trttL2Null : Statement (.trttL2Null) := by
  simp [Statement, positions, encode, encodeWord, leBytes, entryBytes]

theorem trttL2Invalid : Statement (.trttL2Invalid) := by
  simp [Statement, positions, encode, encodeWord, leBytes, entryBytes]

theorem trttL2NullAndInvalid : Statement (.trttL2NullAndInvalid) := by
  simp [Statement, positions, encode, encodeWord, leBytes, entryBytes]

theorem trttL1 (a : Word32) : Statement (.trttL1 a) := by
  simp [Statement, positions, encode, encodeWord, leBytes, entryBytes]

theorem read (e : Engine) (c : CtxId) (g : Word64) (n : Nat) : Statement (.read e c g n) := by
  simp [Statement, positions, encode, encodeWord]

theorem write (e : Engine) (c : CtxId) (g : Word64) (n v : Nat) : Statement (.write e c g n v) := by
  simp [Statement, positions, encode, encodeWord]

theorem mmioWrite (r : RegName) (c : CtxId) (v : Word32) : Statement (.mmioWrite r c v) := by
  simp [Statement, positions, encode, encodeWord]

theorem mmioRead (r : RegName) (c : CtxId) : Statement (.mmioRead r c) := by
  simp [Statement, positions, encode, encodeWord]

theorem ggttUpdate (k : BitVec 20) (e : Word64) : Statement (.ggttUpdate k e) := by
  simp [Statement, positions, encode, encodeWord]

theorem miUpdateGtt (l : List (BitVec 20 × Word64)) : Statement (.miUpdateGtt l) := by
  simp [Statement, positions, encode, encodeWord]

theorem tableWrite (sp : Space) (pa : Word64) (n v : Nat) : Statement (.tableWrite sp pa n v) := by
  simp [Statement, positions, encode, encodeWord]

theorem ctxLoad (c : CtxId) (m : CtxImage) : Statement (.ctxLoad c m) := by
  simp [Statement, positions, encode, encodeWord]

theorem faultResponse (q : Nat) (ok : Bool) : Statement (.faultResponse q ok) := by
  simp [Statement, positions, encode, encodeWord]

theorem ackInvalidTile : Statement (.ackInvalidTile) := by
  simp [Statement, positions, encode, encodeWord]

theorem reset : Statement (.reset) := by
  simp [Statement, positions, encode, encodeWord]

end Sys2Proof.Laws.EncodeLength
end

