-- ==== Sys2Proof/Laws/Reads.lean ====
section
/-! SUPPORT. What a read of a table entry, of data or of the registers can give, and what keeps the quiescence premise. -/

namespace Sys2Proof.Machine

variable (s : State) (c : CtxId)

/-! ## The premise -/

/-- The time of a context's last event rests on two fields only. -/
theorem lastEvent_congr {s t : State} (h : (t.ctx c).caches.since = (s.ctx c).caches.since) (hf : t.flushedAt = s.flushedAt) :
    t.lastEvent c = s.lastEvent c := by
  simp [State.lastEvent, h, hf]

/-- The premise of a context rests on its last event and the last breach only. -/
theorem broken_congr {s t : State} (h : (t.ctx c).caches.since = (s.ctx c).caches.since) (hf : t.flushedAt = s.flushedAt)
    (hb : t.breach = s.breach) : t.broken c = s.broken c := by
  simp [State.broken, lastEvent_congr c h hf, hb]

/-- After an event of every context, no context's last event is earlier than the event, whether or not anything has loaded it. -/
theorem platformEvent_all_lastEvent (name : Nat) (h : s.cfg.addedEvents.contains name = true) :
    s.clock ≤ (s.platformEvent name none).lastEvent c := by
  unfold State.platformEvent
  rw [if_pos h]
  exact Nat.le_max_right ..

/-- Where a context's last event is no earlier than any write, a read of it has no past value to choose from (20_memory R95 c). -/
theorem writesTo_nil (sp : Space) (a n : Nat) (h : ∀ w ∈ s.hist, w.time ≤ s.lastEvent c) : s.writesTo c sp a n = [] := by
  simp only [State.writesTo, State.writesAll, List.filter_eq_nil_iff, List.mem_filter, decide_eq_true_eq, Nat.not_lt]
  exact fun w hw => h w hw.1

@[simp] theorem drawn_broken : s.drawn.broken c = s.broken c := broken_congr c (by simp) rfl rfl

@[simp] theorem fillTlb_broken (c' : CtxId) (e : TlbEntry) : (s.fillTlb c' e).broken c = s.broken c := by
  refine broken_congr c ?_ (by simp) (by simp)
  by_cases h : c = c'
  · subst h; obtain ⟨l, hl, _⟩ := ctx_fillTlb_same s c e; rw [hl]
  · rw [ctx_fillTlb_other s c' e h]

@[simp] theorem fillTrTlb_broken (c' : CtxId) (e : TrTlbEntry) : (s.fillTrTlb c' e).broken c = s.broken c := by
  refine broken_congr c ?_ (by simp) (by simp)
  by_cases h : c = c'
  · subst h; obtain ⟨l, hl, _⟩ := ctx_fillTrTlb_same s c e; rw [hl]
  · rw [ctx_fillTrTlb_other s c' e h]

@[simp] theorem fillPml4_broken (c' : CtxId) (page : Word64) : (s.fillPml4 c' page).broken c = s.broken c := by
  refine broken_congr c ?_ (by simp) (by simp)
  by_cases h : c = c'
  · subst h; rw [ctx_fillPml4_same]
  · rw [ctx_fillPml4_other s c' page h]

/-! ## Entries -/

/-- Inside the premise a table entry that nobody is writing piecewise reads as memory holds it, and nothing is drawn (20_memory R95 b,
R101 b). -/
theorem readTable_settled (sp : Space) (pa : Word64) (n : Nat) (hb : s.broken c = false) (hh : s.halfWritten sp pa.toNat n = false) :
    s.readTable c sp pa n = (s.physRead sp pa n, s) := by
  simp [State.readTable, State.tableWord, State.torn, hb, hh]

/-- Whatever the premise, a table entry that is not torn reads as one of the values it has held (20_memory R95 c). -/
theorem tableWord_mem (sp : Space) (pa : Word64) (n d : Nat) (h : s.torn c sp pa.toNat n = false) :
    s.tableWord c sp pa n d ∈ s.held (s.writesTo c sp pa.toNat n) sp pa n := by
  have hm : s.physRead sp pa n ∈ s.held (s.writesTo c sp pa.toNat n) sp pa n := List.mem_cons_self
  unfold State.tableWord
  rw [if_neg (by simp [h])]
  split
  · cases hd : (s.held (s.writesTo c sp pa.toNat n) sp pa n)[Config.choice d]? with
    | none => exact hm
    | some v => exact List.mem_of_getElem? hd
  · exact hm

/-! ## Data and registers -/

/-- Inside the premise data reads as memory holds it, and nothing is drawn (20_memory R95 b). -/
theorem readData_quiet (e : Engine) (sp : Space) (pa : Word64) (n : Nat) (hb : s.broken c = false) :
    s.readData e c sp pa n = (s.physRead sp pa n, s) := by
  simp [State.readData, hb]

/-- Where no old register copy may be in use a translation uses the context's registers (70_reset_and_hazards R306). -/
theorem pickRegs_present (h : (s.ctx c).caches.trOld = []) : s.pickRegs c = ((s.ctx c).tr, s) := by
  simp [State.pickRegs, h]

end Sys2Proof.Machine
end

