-- ==== Sys2Proof/Tests/Slice0.lean ====
section
/-! SUPPORT. Tests of the model against 95_test_vectors and hand-written words, the well-formedness smoke, and for every statement with
hypotheses a state and operands that meet them. -/

namespace Sys2Proof.Tests

open Sys2Proof Sys2Proof.Machine

set_option Elab.async false

/-! ## Helpers -/

/-- The result of an answer that goes on. -/
def resultOf (o : Out) : Option Result :=
  match o with
  | .next t => some t.result
  | .fault _ => none
  | .refused _ => none

/-- The reason of a refusal. -/
def refusalOf (o : Out) : Option Refusal :=
  match o with
  | .next _ => none
  | .fault _ => none
  | .refused r => some r

/-- The answer goes on, in a state with a property. -/
def nextSat (o : Out) (p : State → Bool) : Bool :=
  match o with
  | .next t => p t
  | .fault _ => false
  | .refused _ => false

theorem nextSat_spec {o : Out} {p : State → Bool} (h : nextSat o p = true) : ∃ t, o = .next t ∧ p t = true := by
  cases o with
  | next t => exact ⟨t, rfl, h⟩
  | fault => cases h
  | refused => cases h

/-- Operations in order; the first stop ends the run. -/
def after : List Instr → State → Out
  | [], s => .next s
  | i :: r, s =>
    match exec i s with
    | .next t => after r t
    | .fault f => .fault f
    | .refused f => .refused f

/-- Bytes as cells from an address on. -/
def cellsFrom : Nat → List Byte → List Host.Cell
  | _, [] => []
  | a, b :: r => (a, b) :: cellsFrom (a + 1) r

/-- System memory that holds values of some bytes at rising addresses. -/
def withMem (l : List (Nat × Nat × Nat)) (s : State) : State :=
  { s with mem := { system := l.flatMap fun x => cellsFrom x.1 (leBytes x.2.1 x.2.2), device := [] } }

/-- The value of some bytes of System memory. -/
def valueAt (s : State) (a n : Nat) : Nat := leNat (s.mem.bytes s.epoch .system a n)

/-- IMG-PP, less the rows no test uses (95_test_vectors section 5); the locations that hold 0 are listed where a test reads them. -/
def imgPp : List (Nat × Nat × Nat) :=
  [(0x100000, 8, 0x101003), (0x1007F8, 8, 0), (0x101000, 8, 0x107003), (0x101008, 8, 0x102003), (0x101018, 8, 0x80000083),
   (0x101020, 8, 0x105001), (0x102008, 8, 0x103003), (0x102010, 8, 0x104803), (0x102018, 8, 0x40000083), (0x103008, 8, 0xABC003),
   (0x103010, 8, 0xABD001), (0x103018, 8, 0x203), (0x103020, 8, 0), (0x103028, 8, 0xFFFFFF8000ABF003), (0x104900, 8, 0x5550003),
   (0x105000, 8, 0x106003), (0x106000, 8, 0xABE003), (0x107400, 8, 0x108003), (0x108000, 8, 0x200003), (0x108008, 8, 0x201003),
   (0x108010, 8, 0x202003)]

/-- IMG-TR, less the rows no test uses (95_test_vectors section 6). -/
def imgTr : List (Nat × Nat × Nat) :=
  [(0x200000, 8, 0x10001000), (0x200008, 8, 1), (0x200010, 8, 3), (0x200018, 8, 0x700000000000), (0x201018, 8, 0x10002000),
   (0x201020, 8, 2), (0x202018, 4, 0x4020), (0x20201C, 4, 0xFFFFFFFE), (0x202020, 4, 0xFFFFFFFF)]

/-- Bytes of the data pages. -/
def imgData : List (Nat × Nat × Nat) := [(0xABC234, 4, 0x600DF00D), (0xABCABC, 4, 0xCAFEF00D), (0xABD010, 4, 0x11223344)]

/-- The context of IMG-PP. -/
def ctxPp : Ctx := { Ctx.initial with pml4 := 0x100000#64, loaded := true }

/-- The registers of IMG-TR. -/
def regsTr : TrRegs := ⟨0x10000000#64, 0xFFFFFFFE#32, 0xFFFFFFFF#32, 0xF7#32, 3#32⟩

/-- Reset, with the GGTT out of the way of the data pages (log 41), IMG-PP, some data, and the context as number 1. -/
def ppState : State :=
  withMem (imgPp ++ imgData)
    { State.reset with
      cfg := { Params.default with ggttBase := 0x01000000#64 }
      ctxs := [(1, ctxPp)] }

/-- The same with IMG-TR and TR-TT active. -/
def trState : State :=
  withMem (imgPp ++ imgTr ++ imgData) { ppState with trbypass := true, ctxs := [(1, { ctxPp with tr := regsTr })] }

/-- The GGTT of V-G under the default base. -/
def ggState : State :=
  withMem [(0x800090, 8, 0x34567001), (0x800098, 8, 0x34568000), (0xFFFFF8, 8, 0xFFFFFFFFFFFFFFFF), (0x34567ABC, 4, 0xDEADBEEF)]
    State.reset

/-! ## Decoding: words written out from the encoding tables -/

theorem test_decode_ggttPte : -- T-G6: 63:52 and 11:1 ignored, bits 4:2 the Function Number
    decodeEntry Params.default .ggtt 0xFFF0000012345FFF#64 = .ggttPte 0x12345#34 7#3 := by decide +kernel

theorem test_decode_pml4e : decodeEntry Params.default .pml4 0x101003#64 = .pml4e 0x101#34 true := by decide +kernel

theorem test_decode_pdpePd : decodeEntry Params.default .pdp 0x105001#64 = .pdpePd 0x105#34 false := by decide +kernel

theorem test_decode_pdpe1gb :
    decodeEntry Params.default .pdp 0x80000083#64 = .pdpe1gb 2#16 false ⟨false, true, false, false, true⟩ := by decide +kernel

theorem test_decode_pdePt : decodeEntry Params.default .pd 0x104803#64 = .pdePt 0x104#34 true true := by decide +kernel

theorem test_decode_pde2mb : -- T-PP16: bit 11 is Local Memory
    decodeEntry Params.default .pd 0x40000883#64 = .pde2mb 0x200#25 true ⟨false, true, false, false, true⟩ := by decide +kernel

theorem test_decode_pte64kb :
    decodeEntry Params.default .pt64k 0x5550A19#64 = .pte64kb 0x555#30 true ⟨true, false, true, true, false⟩ := by decide +kernel

theorem test_decode_pte4kb : -- T-PP6
    decodeEntry Params.default .pt4k 0xAC009B#64 = .pte4kb 0xAC0#34 ⟨false, true, true, true, true⟩ := by decide +kernel

theorem test_decode_notPresent : -- T-G5
    decodeEntry Params.default .ggtt 0xFFFFFFFFFFFFFFFE#64 = .notPresent := by decide +kernel

theorem test_decode_trttL3 :
    [0x700000000000#64, 2#64, 1#64, 3#64].map (decodeEntry Params.default .trL3) =
      [.trttL3Pointer 0x700000000#36, .trttL3Null, .trttL3Invalid, .trttL3NullAndInvalid] := by decide +kernel

theorem test_decode_trttL2 :
    [0x10002000#64, 2#64, 1#64, 3#64].map (decodeEntry Params.default .trL2) =
      [.trttL2Pointer 0x10002#36, .trttL2Null, .trttL2Invalid, .trttL2NullAndInvalid] := by decide +kernel

theorem test_decode_trttL1 : -- T-B3
    decode Params.default .trL1 [0x20#8, 0x40#8, 0#8, 0#8, 0xAA#8] = .ok (.trttL1 0x4020#32, [0xAA#8]) := by decide +kernel

theorem test_decode_refuses_few_bytes : decode Params.default .pt4k [1#8, 2#8] = .error .tooFewBytes := by decide +kernel

theorem test_decode_server_width : -- at HAW 46 the frame reaches bit 45
    decodeEntry { Params.default with haw := .server } .pt4k 0xFFFFFF8000ABF003#64 =
      .pte4kb 0x3F8000ABF#34 ⟨false, false, false, false, true⟩ := by decide +kernel

theorem test_encode_bytes : -- T-B1, T-B2
    encode (.ggttPte 0x34567#34 0) = [0x01#8, 0x70#8, 0x56#8, 0x34#8, 0#8, 0#8, 0#8, 0#8] ∧
    encode (.pte4kb 0xABC#34 ⟨false, false, false, false, true⟩) = [0x03#8, 0xC0#8, 0xAB#8, 0#8, 0#8, 0#8, 0#8, 0#8] := by
  decide +kernel

theorem test_table_words : -- the host's two positions and the 32-bit row
    decodeTableWord 64 0x34567001 = some (.ggttPte 0x34567#34 0) ∧ decodeTableWord 64 0 = some .notPresent ∧
    decodeTableWord 64 2 = some .trttL3Null ∧ decodeTableWord 32 0x4020 = some (.trttL1 0x4020#32) ∧
    decodeTableWord 8 0 = none := by decide +kernel

/-! ## Well-formedness: each check refuses an ill-formed term -/

theorem test_wf_frame_above_haw : wellFormed Params.default (.pte4kb 0x8000000#34 ⟨false, false, false, false, true⟩) = false := by
  decide +kernel

theorem test_wf_frame_below_haw : wellFormed Params.default (.pte4kb 0x7FFFFFF#34 ⟨false, false, false, false, true⟩) = true := by
  decide +kernel

theorem test_wf_leaf_bit : -- a 2 MB page needs bit 7
    wellFormed Params.default (.pde2mb 1 false ⟨false, false, false, false, true⟩) = false := by decide +kernel

theorem test_wf_request_size : wellFormed Params.default (.read .guc .global 0xFFD#64 4) = false ∧
    wellFormed Params.default (.read .guc .global 0xFFC#64 4) = true := by decide +kernel

theorem test_wf_write_value : wellFormed Params.default (.write .guc .global 0 1 256) = false := by decide +kernel

theorem test_wf_register_of_global : wellFormed Params.default (.mmioWrite .trtte .global 3) = false := by decide +kernel

theorem test_wf_table_write : wellFormed Params.default (.tableWrite .device 0 8 0) = false ∧
    wellFormed Params.default (.tableWrite .system 0x8000000000#64 8 0) = false := by decide +kernel

theorem test_wf_image : wellFormed Params.default (.ctxLoad .global ⟨.ppgtt48, 0, false, false, none⟩) = false := by decide +kernel

/-! ## The vectors -/

theorem test_images_in_form : ppState.inv = true ∧ trState.inv = true ∧ ggState.inv = true := by decide +kernel

theorem test_slices : -- T-A4, T-A7, T-A10
    (idx4 0x40201ABC#64, idx3 0x40201ABC#64, idx2 0x40201ABC#64, idx1 0x40201ABC#64) = (0#9, 1#9, 1#9, 1#9) ∧
    (idx2 0x40523456#64, idx1k64 0x40523456#64) = (2#9, 0x120#9) ∧
    (trDet 0x70000C051234#64, trIdx3 0x70000C051234#64, trIdx2 0x70000C051234#64, trIdx1 0x70000C051234#64) =
      (7#4, 0#9, 3#9, 5#10) := by decide +kernel

theorem test_read_ggtt : -- P1 step 3
    resultOf (exec (.read .guc .global 0x12ABC#64 4) ggState) = some (.read 0 0xDEADBEEF false) := by decide +kernel

theorem test_read_upper_bits : -- T-A3, T-A14
    refusalOf (exec (.read .guc .global 0x100000000#64 4) ggState) = some .gvaUpperBits ∧
    refusalOf (exec (.read .guc .global 0xFFD#64 4) ggState) = some .requestCrosses4kb := by decide +kernel

theorem test_ggtt_not_present : -- P1 step 6
    resultOf (exec (.read .guc .global 0x13000#64 4) ggState) = some (.halted 0 (.notPresent .ggtt 0x13000#64)) := by decide +kernel

theorem test_ggttUpdate_repairs : -- P1 steps 6 to 8
    resultOf (after [.read .guc .global 0x13ABC#64 4, .ggttUpdate 0x13#20 0x34567001#64, .faultResponse 0 true] ggState) =
      some (.read 0 0xDEADBEEF false) := by decide +kernel

theorem test_write_ggtt : -- P1 step 2, T-B4
    nextSat (exec (.write .guc .global 0x12ABC#64 4 0x12345678) ggState)
      (fun t => valueAt t 0x34567ABC 4 == 0x12345678 && t.byteAt .system 0x34567ABC == 0x78#8) = true := by decide +kernel

theorem test_read_4k : -- T-PP1
    resultOf (exec (.read .blitter (.proc 1) 0x40201ABC#64 4) ppState) = some (.read 0 0xCAFEF00D false) := by decide +kernel

theorem test_write_64k : -- T-PP7
    nextSat (exec (.write .blitter (.proc 1) 0x40523456#64 2 0xBEEF) ppState) (fun t => valueAt t 0x5553456 2 == 0xBEEF) = true := by
  decide +kernel

theorem test_write_2m : -- T-PP9
    nextSat (exec (.write .blitter (.proc 1) 0x407ABCDE#64 1 0x5A) ppState) (fun t => valueAt t 0x401ABCDE 1 == 0x5A) = true := by
  decide +kernel

theorem test_write_1g : -- T-PP10
    nextSat (exec (.write .blitter (.proc 1) 0xD2345678#64 8 0x0123456789ABCDEF) ppState)
      (fun t => valueAt t 0x92345678 8 == 0x0123456789ABCDEF) = true := by decide +kernel

theorem test_write_denied_above : -- T-PP11
    resultOf (exec (.write .blitter (.proc 1) 0x100000000#64 4 0x22222222) ppState) =
      some (.halted 0 (.writeDenied 0x100000000#64)) := by decide +kernel

theorem test_read_only_page : -- T-PP2
    resultOf (exec (.read .blitter (.proc 1) 0x40202010#64 4) ppState) = some (.read 0 0x11223344 false) := by decide +kernel

theorem test_null_page : -- T-PP3
    resultOf (exec (.read .blitter (.proc 1) 0x40203000#64 4) ppState) = some (.read 0 0 true) := by decide +kernel

theorem test_pt_not_present : -- T-PP4, T-F1
    resultOf (exec (.read .blitter (.proc 1) 0x40204000#64 4) ppState) =
      some (.halted 0 (.notPresent .pt 0x40204000#64)) := by decide +kernel

theorem test_pml4_not_present : -- T-PP12
    resultOf (exec (.read .blitter (.proc 1) 0x7F8000000000#64 4) ppState) =
      some (.halted 0 (.notPresent .pml4 0x7F8000000000#64)) := by decide +kernel

theorem test_faultResponse_ok : -- T-F2
    resultOf (after [.read .blitter (.proc 1) 0x40204ABC#64 4, .tableWrite .system 0x103020#64 8 0xABC003, .faultResponse 0 true]
      ppState) = some (.read 0 0xCAFEF00D false) := by decide +kernel

theorem test_faultResponse_fail : -- T-F3, T-F4
    refusalOf (after [.read .blitter (.proc 1) 0x40204000#64 4, .faultResponse 0 false, .read .blitter (.proc 1) 0x40201ABC#64 4]
      ppState) = some .afterNonrecoverableFault := by decide +kernel

theorem test_tile_mapped : -- T-TR2
    resultOf (exec (.read .render (.proc 1) 0x70000C061234#64 4) trState) = some (.read 0 0x600DF00D false) := by decide +kernel

theorem test_tile_null_l1 : -- T-TR6
    nextSat (exec (.read .posh (.proc 1) 0x70000C070000#64 4) trState)
      (fun t => t.result == .read 0 0 true && !t.irqInvalidTile) = true := by decide +kernel

theorem test_tile_invalid_l1 : -- T-TR7
    nextSat (exec (.read .render (.proc 1) 0x70000C08FFFC#64 4) trState)
      (fun t => t.result == .read 0 0 true && t.irqInvalidTile) = true := by decide +kernel

theorem test_tile_null_l2 : -- T-TR8
    resultOf (exec (.write .render (.proc 1) 0x700010000000#64 4 9) trState) = some (.write 0) := by decide +kernel

theorem test_tile_invalid_l3 : -- T-TR9
    nextSat (exec (.write .render (.proc 1) 0x700800000000#64 4 9) trState)
      (fun t => t.result == .write 0 && t.irqInvalidTile) = true := by decide +kernel

theorem test_tile_refusals : -- T-TR10, T-TR11, T-TR14
    refusalOf (exec (.read .render (.proc 1) 0x701000000000#64 4) trState) = some .trttNullAndInvalid ∧
    refusalOf (exec (.read .render (.proc 1) 0x701800000000#64 4) trState) = some .trttTableInTrva ∧
    refusalOf (exec (.read .blitter (.proc 1) 0x70000C061234#64 4) trState) = some .trttEngine := by decide +kernel

theorem test_mmioWrite_masks : -- T-RG2, T-RG4
    resultOf (after [.mmioWrite .trvattl3ptrDw0 (.proc 1) 0x1234FFFF#32, .mmioRead .trvattl3ptrDw0 (.proc 1)] State.reset) =
      some (.register 0x12340000#32) ∧
    resultOf (after [.mmioWrite .trvadr (.proc 1) 0xFFFFFFF7#32, .mmioRead .trvadr (.proc 1)] State.reset) =
      some (.register 0xF7#32) := by decide +kernel

theorem test_mmioRead_other_context : -- T-RG10
    resultOf (after [.mmioWrite .trvadr (.proc 1) 0xF7#32, .mmioRead .trvadr (.proc 2)] State.reset) = some (.register 0) := by
  decide +kernel

theorem test_mmioWrite_bypass : -- T-RG7, T-RG9
    nextSat (exec (.mmioWrite (.offset 0x4DFC#32) .global 1) State.reset) (fun t => t.trbypass) = true ∧
    refusalOf (exec (.mmioWrite .pgtblCtl .global 1) State.reset) = some .unmodelledRegister := by decide +kernel

theorem test_miUpdateGtt : -- the later of two updates of one entry stays
    nextSat (exec (.miUpdateGtt [(0x12#20, 1#64), (0x13#20, 2#64), (0x12#20, 3#64)]) State.reset)
      (fun t => valueAt t 0x800090 16 == 0x20000000000000003) = true := by decide +kernel

theorem test_miUpdateGtt_empty : -- the model's choice, log 35
    nextSat (exec (.miUpdateGtt []) State.reset) (fun t => t == { State.reset with result := .done }) = true := by decide +kernel

theorem test_tableWrite_into_ggtt :
    refusalOf (exec (.tableWrite .system 0x7FFFFC#64 8 0) State.reset) = some .ggttDirectWrite := by decide +kernel

theorem test_tableWrite_of_nothing : -- a width of 0 inside the GGTT (log 37)
    nextSat (exec (.tableWrite .system 0x900000#64 0 5) State.reset) (· == { State.reset with result := .done }) = true := by
  decide +kernel

theorem test_tableWrite_in_halves : -- R79: between the two halves the entry is being written piecewise
    nextSat (exec (.tableWrite .system 0x103008#64 4 0xABD003) ppState) (fun t => t.halfWritten .system 0x103008 8) = true ∧
    nextSat (after [.tableWrite .system 0x103008#64 4 0xABD003, .tableWrite .system 0x10300C#64 4 0] ppState)
      (fun t => !t.halfWritten .system 0x103008 8) = true := by decide +kernel

theorem test_premise_is_global : -- R95 b: a write of an entry that one context's TLB holds fails the premise of both
    nextSat (after [.read .guc (.proc 1) 0x40201ABC#64 4, .tableWrite .system 0x103008#64 8 0xABD003] ppState)
      (fun t => t.broken (.proc 1) && t.broken (.proc 2)) = true := by decide +kernel

theorem test_request_shape : -- R6 MAX_REQUEST_BYTES
    (let s : State := { ggState with cfg := { ggState.cfg with maxRequestBytes := 4 } }
     refusalOf (exec (.read .guc .global 0x12ABC#64 8) s) = some .requestShape ∧
     resultOf (exec (.read .guc .global 0x12ABC#64 4) s) = some (.read 0 0xDEADBEEF false)) := by decide +kernel

theorem test_ctxLoad : -- P2 step 22
    resultOf (after [.ctxLoad (.proc 2) ⟨.ppgtt48, 0x100000#64, false, false, none⟩, .read .blitter (.proc 2) 0x40201ABC#64 4]
      ppState) = some (.read 0 0xCAFEF00D false) := by decide +kernel

theorem test_ackInvalidTile : -- P3 step 46
    nextSat (exec .ackInvalidTile { State.reset with irqInvalidTile := true }) (fun t => !t.irqInvalidTile) = true := by decide +kernel

theorem test_reset : -- P5 steps 44, 45
    nextSat (exec .reset { trState with needsReset := true, irqInvalidTile := true })
      (fun t => !t.needsReset && !t.irqInvalidTile && !t.trbypass && (t.ctx (.proc 1)).tr == TrRegs.reset) = true := by decide +kernel

theorem test_fetch_word_runs : -- step runs the word that withFetchWord placed
    resultOf (step (State.reset.withFetchWord 64 2)) = some (.read 0 0 true) ∧
    resultOf (step (State.reset.withFetchWord 64 0)) = some (.halted 0 (.notPresent .ggtt 0)) := by decide +kernel

/-! ## Witnesses: for each statement with hypotheses, a state and operands that meet them -/

/-- A request of Render for four bytes. -/
def req (c : CtxId) (gva : Word64) (v : Option Nat) : Request := { id := 0, agent := .render, ctx := c, gva := gva, n := 4, value := v }

/-- `s` with a walk open that is about to read the entry at `pa` for a position. -/
def walking (s : State) (pos : Pos) (pa : Word64) (q : Request) (stage : Stage) : State :=
  { s with walk := some { Walk.start q (s.ctx q.ctx).tr with pos := pos, pa := pa, stage := stage } }

/-- The walk in progress, or some walk. -/
def walkOf (s : State) : Walk := s.walk.getD (Walk.start (req .global 0 none) TrRegs.reset)

/-- The walk of a READ of IMG-PP's 4 KB page, about to read its page-table entry. -/
def atPte : State := walking ppState .pt4k 0x103008#64 (req (.proc 1) 0x40201ABC#64 none) .data

/-- The same for a WRITE. -/
def atPteWrite : State := walking ppState .pt4k 0x103008#64 (req (.proc 1) 0x40201ABC#64 (some 5)) .data

/-- The walk for a TR-TT L2 table read, about to read the page-table entry. -/
def atPteTable : State := walking trState .pt4k 0x108008#64 (req (.proc 1) 0x70000C061234#64 none) (.table .l2)

/-- A TR-TT walk about to read its L3, L2 or L1 entry. -/
def atTr (l : TrLevel) (v : Option Nat) : State :=
  walking trState l.pos 0x200000#64 (req (.proc 1) 0x70000C061234#64 v) (.table l)

/-- A walk of a GGTT READ or WRITE about to read its entry. -/
def atGgtt (v : Option Nat) : State := walking ggState .ggtt 0x800090#64 (req .global 0x12ABC#64 v) .data

/-- A 4 KB entry's flags with R/W as given. -/
def flags (nul rw : Bool) : LeafBits := ⟨nul, false, false, false, rw⟩

/-- The cached PML4 of a context all of whose entries are not present. -/
def emptyPml4 : Pml4Cache := { page := 0x100000#64, entries := List.replicate 512 0 }

/-- IMG-PP's context with a cached PML4 and a cached translation. -/
def warmState : State :=
  ppState.setCaches (.proc 1)
    { Caches.empty with
      pml4c := some emptyPml4
      tlb := [⟨false, .k4, 0x40201000#64, .page .system 0xABC000#64 0 true, false, []⟩] }

/-- The same on a platform whose invalidation events include number 7, with an event scheduled. -/
def eventState (name : Nat) (c : Option CtxId) : State :=
  { warmState with cfg := { warmState.cfg with addedEvents := [7] }, schedule := [.event name c] }

theorem test_platform_event : -- 92 D8: an added event empties the caches of its context or of all; another event does not
    nextSat (step (eventState 7 none)) (fun t => (t.ctx (.proc 1)).caches.tlb.isEmpty && t.schedule.isEmpty) = true ∧
    nextSat (step (eventState 7 (some (.proc 2)))) (fun t => !(t.ctx (.proc 1)).caches.tlb.isEmpty) = true ∧
    nextSat (step (eventState 8 none)) (fun t => (t.ctx (.proc 1)).caches.pml4c.isSome) = true := by decide +kernel

theorem test_platform_event_starts_the_history : -- 20_memory R95 (c): a value held before the event is none of a context nothing has loaded
    (let s := ppState.physWrite .host .system 0x9000#64 [1#8]
     (s.writesTo (.proc 5) .system 0x9000 1).length = 1 ∧
     ((({ s with cfg := { s.cfg with addedEvents := [7] } }).platformEvent 7 none).writesTo (.proc 5) .system 0x9000 1).length = 0) := by
  decide +kernel

/-- IMG-PP with a halted READ under number 0. -/
def haltedState : State :=
  { ppState with halted := [(0, ⟨req (.proc 1) 0x40204000#64 none, .notPresent .pt 0x40204000#64, .data⟩)], nextReq := 1 }

/-- A context right after an invalidation event agrees with its tables. -/
theorem cold_coherent {s : State} {c : CtxId} (h : s.cold c) : coherent s c :=
  ⟨h.2.2.2, fun e he => absurd (h.1 ▸ he) (by simp), fun e he => absurd (h.2.1 ▸ he) (by simp)⟩

theorem cold_ppState : ppState.cold (.proc 1) := by refine ⟨?_, ?_, ?_, ?_, ?_⟩ <;> decide +kernel

theorem cold_ggState : ggState.cold .global := by refine ⟨?_, ?_, ?_, ?_, ?_⟩ <;> decide +kernel

theorem witness_StepRunsTheFetchedEntry :
    (atPte.walk = some (walkOf atPte) ∧ (walkOf atPte).forced = none ∧ atPte.broken (.proc 1) = false ∧
      atPte.halfWritten .system 0x103008 8 = false ∧
      decode atPte.cfg .pt4k (atPte.mem.bytes atPte.epoch .system 0x103008 8) = .ok (.pte4kb 0xABC#34 (flags false true), [])) ∧
    ((walkOf (atGgtt none)).pos = .ggtt ∧ (walkOf (atGgtt none)).pa = 0x800090#64 ∧
      decode ggState.cfg .ggtt (ggState.mem.bytes ggState.epoch .system 0x800090 8) = .ok (.ggttPte 0x34567#34 0, [])) ∧
    (let s := walking warmState .pml4 0x100000#64 (req (.proc 1) 0 none) .data
     (walkOf s).pos = .pml4 ∧ (walkOf s).forced = none ∧ (s.ctx (.proc 1)).caches.pml4c = some emptyPml4) ∧
    ({ walkOf (atTr .l1 none) with forced := some 5 } : Walk).forced = some 5 ∧
    (({ State.reset with schedule := [.op .ackInvalidTile] } : State).walk = none ∧ State.reset.schedule = []) := by decide +kernel

theorem witness_DecodeInvertsEncode :
    wellFormed Params.default (.pde2mb 0x3FFFF#25 true ⟨true, true, true, true, true⟩) = true ∧
    Pos.pd ∈ positions (.pde2mb 0x3FFFF#25 true ⟨true, true, true, true, true⟩) := by decide +kernel

theorem witness_IgnoredBitsDoNotMatter :
    (0xFFFFFF8000ABF003#64 ^^^ 0x0000000000ABF003#64) &&& namedBits Params.default .pt4k 0xFFFFFF8000ABF003#64 = 0 ∧
    (0xFFFFFF8000103803#64 ^^^ 0x0000000000103803#64) &&& namedBits Params.default .pd 0xFFFFFF8000103803#64 = 0 ∧
    isLeaf Params.default .pd 0xFFFFFF8000103803#64 = isLeaf Params.default .pd 0x0000000000103803#64 := by decide +kernel

theorem witness_StepKeepsTheDataInForm :
    (let s := { trState with schedule := [.op (.write .render (.proc 1) 0x70000C061234#64 4 9)] }
     s.inv = true ∧ ∃ t, step s = .next t ∧ (t.schedule == []) = true) :=
  ⟨by decide +kernel, nextSat_spec (by decide +kernel)⟩

theorem witness_ConfigurationNeverChanges : ∃ t, exec .reset trState = .next t ∧ (t.epoch == 1) = true :=
  nextSat_spec (by decide +kernel)

theorem witness_TranslationLeavesMemoryUnchanged :
    (∃ t, exec (.read .render (.proc 1) 0x70000C061234#64 4) trState = .next t ∧ (t.needsReset == false) = true) ∧
    (positions (.pte4kb 0xABC#34 (flags false true)) ≠ [] ∧ (walkOf atPte).req.value = none ∧ (walkOf atPte).stage = .data ∧
      ∃ t, exec (.pte4kb 0xABC#34 (flags false true)) atPte = .next t ∧ t.walk.isNone = true) ∧
    (let s := walking ppState .pd 0x102008#64 (req (.proc 1) 0x40201ABC#64 (some 5)) .data
     (pointerView (walkOf s).va (.pdePt 0x103#34 false true)).isSome = true ∧ (walkOf s).spurious = false ∧
     ∃ t, exec (.pdePt 0x103#34 false true) s = .next t ∧ t.walk.isSome = true) :=
  ⟨nextSat_spec (by decide +kernel), ⟨by decide +kernel, by decide +kernel, rfl, nextSat_spec (by decide +kernel)⟩,
    by decide +kernel, by decide +kernel, nextSat_spec (by decide +kernel)⟩

theorem witness_RegistersChangeOnlyByHostOperations :
    ∃ t, exec (.write .render (.proc 1) 0x70000C061234#64 4 9) trState = .next t ∧ (valueAt t 0xABC234 4 == 9) = true :=
  nextSat_spec (by decide +kernel)

theorem witness_GgttChangesOnlyThroughItsWindow :
    (∃ t, exec (.tableWrite .system 0x7FFFF8#64 8 5) ggState = .next t ∧ (t.needsReset == false) = true) ∧
    ggState.cfg.ggttBase.toNat ≤ 0x800000 ∧ 0xFFFFFF < ggState.cfg.ggttBase.toNat + 2 ^ 23 :=
  ⟨nextSat_spec (by decide +kernel), by decide +kernel⟩

theorem witness_InterruptStaysPendingUntilAcknowledged :
    ∃ t, exec (.read .blitter (.proc 1) 0x40201ABC#64 4) { ppState with irqInvalidTile := true } = .next t ∧
      t.irqInvalidTile = true := nextSat_spec (by decide +kernel)

theorem witness_NeedsResetIsSetByNonRecoverableAndClearedOnlyByReset :
    (∃ t, exec (.faultResponse 0 false) haltedState = .next t ∧ ∃ d, t.result = .nonRecoverable 0 d) ∧
    (∃ t, exec (.mmioWrite .trtte (.proc 1) 3) { ppState with needsReset := true } = .next t ∧ t.needsReset = true) :=
  ⟨⟨_, rfl, _, rfl⟩, nextSat_spec (by decide +kernel)⟩

theorem witness_Pml4IsFrozenAtFirstUse :
    ((ppState.ctx (.proc 1)).kind = .ppgtt48 ∧ (ppState.ctx (.proc 1)).caches.tlb = [] ∧ (ppState.ctx (.proc 1)).caches.trTlb = []) ∧
    (∃ t, exec (.read .guc (.proc 1) 0x40201ABC#64 4) ppState = .next t ∧ (t.ctx (.proc 1)).caches.pml4c.isSome = true) ∧
    (warmState.ctx (.proc 1)).caches.pml4c = some emptyPml4 ∧
    (∃ t, exec (.tableWrite .system 0x100000#64 8 3) warmState = .next t ∧ (valueAt t 0x100000 8 == 3) = true) ∧
    (let s := walking warmState .pml4 0x100000#64 (req (.proc 1) 0 none) .data
     (walkOf s).pos = .pml4 ∧ (walkOf s).forced = none ∧ (s.ctx (.proc 1)).caches.pml4c = some emptyPml4) :=
  ⟨by decide +kernel, nextSat_spec (by decide +kernel), by decide +kernel, nextSat_spec (by decide +kernel), by decide +kernel⟩

theorem witness_CachedTranslationsLastUntilAnInvalidationEvent :
    (warmState.ctx (.proc 1)).caches.tlb.length = 1 ∧
    (∃ t, exec (.ctxLoad (.proc 2) ⟨.ppgtt48, 0, false, false, none⟩) warmState = .next t ∧ (t.result == .done) = true) ∧
    (∀ e c, (eventState e c).walk = none ∧ (eventState e c).schedule = [.event e c] ∧ (eventState e c).breach ≤ (eventState e c).clock ∧
      ∀ w ∈ (eventState e c).hist, w.time ≤ (eventState e c).clock) ∧
    7 ∈ (eventState 7 none).cfg.addedEvents ∧ 8 ∉ (eventState 8 none).cfg.addedEvents ∧ some (CtxId.proc 2) ≠ some (CtxId.proc 1) :=
  ⟨by decide +kernel, nextSat_spec (by decide +kernel), fun _ _ => ⟨rfl, rfl, Nat.le_refl _, fun _ h => absurd h List.not_mem_nil⟩, by decide +kernel⟩

theorem witness_ReadLeavesOtherContextsAlone :
    ∃ t, exec (.read .blitter (.proc 1) 0x40201ABC#64 4) ppState = .next t ∧ ((t.ctx (.proc 1)).caches.tlb.length == 1) = true :=
  nextSat_spec (by decide +kernel)

theorem witness_HaltedRequestHasHadNoEffect :
    (∃ t, exec (.read .blitter (.proc 1) 0x40204FFF#64 1) ppState = .next t ∧
      (t.result == .halted 0 (.notPresent .pt 0x40204FFF#64)) = true) ∧
    (∃ t, exec (.write .blitter (.proc 1) 0x40202FFC#64 4 1) ppState = .next t ∧
      (t.result == .halted 0 (.writeDenied 0x40202FFC#64)) = true) :=
  ⟨nextSat_spec (by decide +kernel), nextSat_spec (by decide +kernel)⟩

theorem witness_RequestsEndWithinTheirOperation :
    (∃ t, exec (.read .render (.proc 1) 0x70000C061234#64 4) trState = .next t ∧ t.walk.isNone = true) ∧
    (∃ t, exec (.write .render (.proc 1) 0x70000C061234#64 4 1) trState = .next t ∧ t.walk.isNone = true) ∧
    (∃ t, exec (.faultResponse 0 false) haltedState = .next t ∧ t.walk.isNone = true) :=
  ⟨nextSat_spec (by decide +kernel), nextSat_spec (by decide +kernel), nextSat_spec (by decide +kernel)⟩

theorem witness_SteppingAWalkIsRunningIt :
    ∃ t, runWalk walkBound (walking ppState .pml4 0x100000#64 (req (.proc 1) 0x40201ABC#64 none) .data) = .next t ∧
      t.walk.isNone = true := nextSat_spec (by decide +kernel)

theorem witness_ReadFollowsTheRules :
    admitted ppState (.proc 1) 0x40201FFF#64 1 ∧ admitted ppState (.proc 1) 0#64 4096 ∧ coherent ppState (.proc 1) ∧
    (∀ x, recoverable ppState.cfg x = true) ∧ (ppState.ctx (.proc 1)).pml4.toNat + 4096 ≤ 2 ^ ppState.cfg.haw.bits ∧
    ruleTranslate ppState .blitter (.proc 1) 0x40201ABC#64 = .phys .system 0xABCABC#64 true :=
  ⟨⟨by decide +kernel, by decide +kernel, by decide +kernel, by decide +kernel, rfl⟩, ⟨by decide +kernel, by decide +kernel, by decide +kernel, by decide +kernel, rfl⟩,
    cold_coherent cold_ppState, fun _ => rfl, by decide +kernel, by decide +kernel⟩

theorem witness_WriteFollowsTheRules :
    admitted ppState (.proc 1) 0x40202010#64 4 ∧ coherent ppState (.proc 1) ∧ (∀ x, recoverable ppState.cfg x = true) ∧
    (ppState.ctx (.proc 1)).pml4.toNat + 4096 ≤ 2 ^ ppState.cfg.haw.bits ∧
    ruleTranslate ppState .blitter (.proc 1) 0x40202010#64 = .phys .system 0xABD010#64 false ∧
    ruleTranslate ppState .blitter (.proc 1) 0x40203000#64 = .nullPage true ∧
    ruleTranslate ppState .blitter (.proc 1) 0x40204000#64 = .notPresent .pt 0x40204000#64 ∧
    ruleTranslate trState .render (.proc 1) 0x70000C070000#64 = .nullTile ∧
    ruleTranslate trState .render (.proc 1) 0x70000C080000#64 = .invalidTile ∧
    ruleTranslate trState .render (.proc 1) 0x701000000000#64 = .refused .trttNullAndInvalid :=
  ⟨⟨by decide +kernel, by decide +kernel, by decide +kernel, by decide +kernel, rfl⟩, cold_coherent cold_ppState, fun _ => rfl, by decide +kernel,
    by decide +kernel, by decide +kernel, by decide +kernel, by decide +kernel, by decide +kernel, by decide +kernel⟩

theorem witness_FaultResponseReexecutesTheRequest :
    (assocGet haltedState.halted 0).isSome = true ∧
    (let s1 : State := { haltedState with halted := assocErase haltedState.halted 0 }
     admitted s1 (.proc 1) 0x40204000#64 4 ∧ coherent s1 (.proc 1) ∧ (∀ x, recoverable s1.cfg x = true) ∧
     (s1.ctx (.proc 1)).pml4.toNat + 4096 ≤ 2 ^ s1.cfg.haw.bits) :=
  ⟨by decide +kernel, ⟨by decide +kernel, by decide +kernel, by decide +kernel, by decide +kernel, rfl⟩,
    cold_coherent (by refine ⟨?_, ?_, ?_, ?_, ?_⟩ <;> decide +kernel), fun _ => rfl, by decide +kernel⟩

/-- The GGTT of V-G with a READ halted on a page that is now present. -/
def haltedGlobal : State :=
  { ggState with halted := [(0, ⟨req .global 0x12ABC#64 none, .notPresent .ggtt 0x12ABC#64, .data⟩)], nextReq := 1 }

theorem witness_PresentGlobalPageCompletesRequests :
    admitted haltedGlobal .global 0x12ABC#64 4 ∧ coherent haltedGlobal .global ∧
    haltedGlobal.cfg.ggttBase.extractLsb' 0 12 = 0 ∧
    haltedGlobal.cfg.ggttBase.toNat + 2 ^ 23 ≤ 2 ^ haltedGlobal.cfg.haw.bits ∧
    0x34567001#64 = BitVec.ofNat 64 (haltedGlobal.physRead .system
      (haltedGlobal.cfg.ggttBase + ((0x12ABC#64).extractLsb' 12 20).setWidth 64 <<< 3) 8) ∧
    inGgtt haltedGlobal.cfg .system (frameOf haltedGlobal.cfg 0x34567001#64 ++ (0x12ABC#64).extractLsb' 0 12).toNat 4 = false ∧
    assocGet haltedGlobal.halted 0 = some ⟨⟨0, .render, .global, 0x12ABC#64, 4, none⟩, .notPresent .ggtt 0x12ABC#64, .data⟩ :=
  ⟨⟨by decide +kernel, by decide +kernel, by decide +kernel, by decide +kernel, rfl⟩,
    cold_coherent (by refine ⟨?_, ?_, ?_, ?_, ?_⟩ <;> decide +kernel), by decide +kernel⟩

theorem witness_RequestsNotAdmittedAreRefused :
    Params.default.upper = .zero ∧ (ggState.ctx .global).kind = .ggtt ∧
    2 ^ ggState.cfg.ggttVaBits ≤ (0x100000000#64).toNat ∧ (0xFFFFFFFF#64).toNat < 2 ^ ggState.cfg.ggttVaBits ∧
    (ppState.ctx (.proc 1)).kind = .ppgtt48 ∧ 2 ^ ppState.cfg.ppgttVaBits ≤ (0x1000000000000#64).toNat ∧
    (0xFFFFFFFFFFFF#64).toNat < 2 ^ ppState.cfg.ppgttVaBits ∧
    (let p := { Params.default with maxRequestBytes := 64, requestAlign := 2 }
     p.maxRequestBytes < 65 ∧ 64 ≤ p.maxRequestBytes ∧ (0x1002#64).toNat % 2 ^ p.requestAlign ≠ 0 ∧
       (0x1004#64).toNat % 2 ^ p.requestAlign = 0) ∧
    4096 < ((0xFFD#64).extractLsb' 0 12).toNat + 4 ∧ ((0xFFC#64).extractLsb' 0 12).toNat + 4 ≤ 4096 ∧
    ({ ppState with needsReset := true } : State).needsReset = true := by decide +kernel

/-- TR-TT active in the context of IMG-PP, with only what admission and detection read. -/
theorem witness_OtherEnginesMayNotUseTiles :
    admitted trState (.proc 1) 0x70000C061234#64 4 ∧ (trState.ctx (.proc 1)).kind = .ppgtt48 ∧
    (trState.ctx (.proc 1)).caches.trOld = [] ∧ trActive trState.cfg trState.trbypass (trState.ctx (.proc 1)).tr = true ∧
    trDetect (trState.ctx (.proc 1)).tr 0x70000C061234#64 = some true ∧ trDetect (trState.ctx (.proc 1)).tr 0x7FFFFFFFFFFF#64 = some true :=
  ⟨⟨by decide +kernel, by decide +kernel, by decide +kernel, by decide +kernel, rfl⟩, by decide +kernel⟩

/-- TR-TT active with the registers as given, nothing cached. -/
def trWith (r : TrRegs) : State := { trState with ctxs := [(1, { ctxPp with tr := r })] }

/-- What the statement on excluded registers asks of the state and the request, as a Bool. -/
def excludedHyps (r : TrRegs) : Bool :=
  (((trWith r).ctx (.proc 1)).kind == .ppgtt48) && ((trWith r).ctx (.proc 1)).caches.trOld.isEmpty &&
  ((trWith r).ctx (.proc 1)).caches.trTlb.isEmpty && trActive (trWith r).cfg (trWith r).trbypass ((trWith r).ctx (.proc 1)).tr

theorem witness_TileRequestsUnderExcludedRegistersAreRefused : -- T-TR19, T-TR16, T-TR17, and an L3 table at 0x7000_0000_0000
    admitted (trWith regsTr) (.proc 1) 0x70000C061234#64 4 ∧
    (excludedHyps { regsTr with trvadr := 0x37#32 } = true ∧ trDetect { regsTr with trvadr := 0x37#32 } 0x70000C061234#64 = none) ∧
    (excludedHyps { regsTr with trtte := 1#32 } = true ∧ trDetect { regsTr with trtte := 1#32 } 0x70000C061234#64 = some true) ∧
    excludedHyps { regsTr with nulldet := 0xFFFFFFFF#32 } = true ∧
    (excludedHyps { regsTr with l3ptr := 0x700000000000#64 } = true ∧ trDetect regsTr 0x700000000000#64 = some true) :=
  ⟨⟨by decide +kernel, by decide +kernel, by decide +kernel, by decide +kernel, rfl⟩, by decide +kernel⟩

theorem witness_BypassedTileAddressesGoToThePpgtt : -- T-TR18
    (let s : State := { trState with trbypass := false }
     admitted s (.proc 1) 0x70000C061234#64 4 ∧ coherent s (.proc 1) ∧ (∀ x, recoverable s.cfg x = true) ∧
     (s.ctx (.proc 1)).pml4.toNat + 4096 ≤ 2 ^ s.cfg.haw.bits ∧ (s.ctx (.proc 1)).kind = .ppgtt48 ∧ s.trbypass = false) :=
  ⟨⟨by decide +kernel, by decide +kernel, by decide +kernel, by decide +kernel, rfl⟩, cold_coherent (by refine ⟨?_, ?_, ?_, ?_, ?_⟩ <;> decide +kernel),
    fun _ => rfl, by decide +kernel, by decide +kernel, rfl⟩

/-- IMG-TR with a READ of an Invalid tile halted under number 0. -/
def trHalted : State :=
  { trState with halted := [(0, ⟨req (.proc 1) 0x70000C08FFFC#64 none, .notPresent .pt 0x10002020#64, .table .l1⟩)], nextReq := 1 }

theorem witness_OnlyInvalidTilesInterrupt :
    (trState.irqInvalidTile = false ∧
      ∃ t, exec (.read .render (.proc 1) 0x70000C08FFFC#64 4) trState = .next t ∧ t.irqInvalidTile = true) ∧
    ((atTr .l3 none).irqInvalidTile = false ∧ ∃ t, exec .trttL3Invalid (atTr .l3 none) = .next t ∧ t.irqInvalidTile = true) ∧
    (let s1 : State := { trHalted with halted := assocErase trHalted.halted 0 }
     (assocGet trHalted.halted 0).isSome = true ∧ admitted s1 (.proc 1) 0x70000C08FFFC#64 4 ∧ coherent s1 (.proc 1) ∧
     trHalted.irqInvalidTile = false ∧ ∃ t, exec (.faultResponse 0 true) trHalted = .next t ∧ t.irqInvalidTile = true) ∧
    (assocGet haltedState.halted 0 = some ⟨req (.proc 1) 0x40204000#64 none, .notPresent .pt 0x40204000#64, .data⟩ ∧
      ∃ t, exec (.faultResponse 0 false) haltedState = .next t ∧ t.needsReset = true) ∧
    (admitted trState (.proc 1) 0x70000C08FFFC#64 4 ∧ coherent trState (.proc 1) ∧ (∀ x, recoverable trState.cfg x = true) ∧
      (trState.ctx (.proc 1)).pml4.toNat + 4096 ≤ 2 ^ trState.cfg.haw.bits) :=
  ⟨⟨rfl, nextSat_spec (by decide +kernel)⟩, ⟨rfl, nextSat_spec (by decide +kernel)⟩,
    ⟨by decide +kernel, ⟨by decide +kernel, by decide +kernel, by decide +kernel, by decide +kernel, rfl⟩,
      cold_coherent (by refine ⟨?_, ?_, ?_, ?_, ?_⟩ <;> decide +kernel), rfl, nextSat_spec (by decide +kernel)⟩,
    ⟨by decide +kernel, nextSat_spec (by decide +kernel)⟩,
    ⟨by decide +kernel, by decide +kernel, by decide +kernel, by decide +kernel, rfl⟩, cold_coherent (by refine ⟨?_, ?_, ?_, ?_, ?_⟩ <;> decide +kernel),
    fun _ => rfl, by decide +kernel⟩

/-- IMG-PP under the default GGTT base, where the data pages lie in the GGTT (log 41). -/
def overlapState : State := { ppState with cfg := Params.default }

theorem witness_StoresIntoTheGgttAreRefused :
    ((0x800000#64).toNat + 1 ≤ 2 ^ State.reset.cfg.haw.bits ∧ inGgtt State.reset.cfg .system (0x800000#64).toNat 1 = true) ∧
    (admitted overlapState (.proc 1) 0x40201ABC#64 4 ∧ coherent overlapState (.proc 1) ∧ (∀ x, recoverable overlapState.cfg x = true) ∧
      (overlapState.ctx (.proc 1)).pml4.toNat + 4096 ≤ 2 ^ overlapState.cfg.haw.bits ∧
      ruleTranslate overlapState .blitter (.proc 1) 0x40201ABC#64 = .phys .system 0xABCABC#64 true ∧
      inGgtt overlapState.cfg .system (0xABCABC#64).toNat 4 = true) :=
  ⟨by decide +kernel, ⟨by decide +kernel, by decide +kernel, by decide +kernel, by decide +kernel, rfl⟩,
    cold_coherent (by refine ⟨?_, ?_, ?_, ?_, ?_⟩ <;> decide +kernel), fun _ => rfl, by decide +kernel, by decide +kernel,
    by decide +kernel⟩

theorem witness_AfterANonRecoverableFaultRequestsAreRefused :
    ({ haltedState with needsReset := true } : State).needsReset = true ∧
    (assocGet ({ haltedState with needsReset := true } : State).halted 0).isSome = true := ⟨rfl, by decide +kernel⟩

/-- A context of a kind the source only names. -/
def namedOnly (k : CtxKind) : State := { State.reset with ctxs := [(1, { Ctx.initial with kind := k })] }

theorem witness_UndefinedModesAreRefused :
    admitted (namedOnly .advPpgtt64) (.proc 1) 0x40201ABC#64 4 ∧ admitted (namedOnly .ppgtt32) (.proc 1) 0x40201ABC#64 4 ∧
    ((namedOnly .advPpgtt64).ctx (.proc 1)).kind = .advPpgtt64 ∧ ((namedOnly .ppgtt32).ctx (.proc 1)).kind = .ppgtt32 :=
  ⟨⟨by decide +kernel, by decide +kernel, by decide +kernel, by decide +kernel, rfl⟩, ⟨by decide +kernel, by decide +kernel, by decide +kernel, by decide +kernel, rfl⟩,
    by decide +kernel⟩

theorem witness_GgttEntryServesTheAccess :
    reading (atGgtt none) .ggtt (walkOf (atGgtt none)) ∧ (walkOf (atGgtt none)).req.value = none ∧
    (atGgtt none).broken .global = false ∧
    reading (atGgtt (some 5)) .ggtt (walkOf (atGgtt (some 5))) ∧ (walkOf (atGgtt (some 5))).req.value = some 5 ∧
    inGgtt (atGgtt (some 5)).cfg .system ((0x34567#34 ++ (0xABC#12)).setWidth 64 : Word64).toNat 4 = false ∧
    inGgtt (atGgtt (some 5)).cfg .system ((0x00FFF#34 ++ (0xABC#12)).setWidth 64 : Word64).toNat 4 = true := by
  refine ⟨⟨rfl, rfl, rfl⟩, rfl, ?_, ⟨rfl, rfl, rfl⟩, rfl, ?_, ?_⟩ <;> decide +kernel

/-- A configuration without a second level, and a context that asks for one. -/
def nestedState : State :=
  { atPte with
    cfg := { atPte.cfg with slSupplied := false }
    ctxs := [(1, { ctxPp with neste := true })]
    walk := some { walkOf atPte with pos := .pd } }

theorem witness_PointerEntryGoesOneLevelDown :
    (pointerView 0x40201ABC#64 (.pdePt 0x103#34 false true) = some (.pd, .pt4k, 0x103008#64, true) ∧
      pointerView 0x40523456#64 (.pdePt 0x104#34 true true) = some (.pd, .pt64k, 0x104900#64, true) ∧
      pointerView 0x40201ABC#64 (.pml4e 0x101#34 true) = some (.pml4, .pdp, 0x101008#64, true) ∧
      pointerView 0x40201ABC#64 (.pdpePd 0x102#34 true) = some (.pdp, .pd, 0x102008#64, true)) ∧
    reading (walking ppState .pd 0x102008#64 (req (.proc 1) 0x40201ABC#64 none) .data) .pd
      (walkOf (walking ppState .pd 0x102008#64 (req (.proc 1) 0x40201ABC#64 none) .data)) ∧
    ppState.sl (.proc 1) 0x103008#64 = some 0x103008#64 ∧
    reading nestedState .pd (walkOf nestedState) ∧ nestedState.sl (.proc 1) 0x103008#64 = none := by
  refine ⟨?_, ⟨rfl, rfl, rfl⟩, ?_, ⟨rfl, rfl, rfl⟩, ?_⟩ <;> decide +kernel

theorem witness_LeafEntryServesRead :
    (leafView atPte.cfg (walkOf atPte).va (.pte4kb 0xABC#34 (flags false true)) =
        some (.pt4k, 0xABCABC#64, .system, flags false true) ∧
      leafView { atPte.cfg with hasLocalMemory := true } 0x40523456#64 (.pte64kb 0x555#30 true (flags false true)) =
        some (.pt64k, 0x5553456#64, .device, flags false true) ∧
      leafView atPte.cfg 0x407ABCDE#64 (.pde2mb 0x200#25 true (flags false true)) =
        some (.pd, 0x401ABCDE#64, .system, flags false true) ∧
      leafView atPte.cfg 0xD2345678#64 (.pdpe1gb 2#16 false (flags false true)) =
        some (.pdp, 0x92345678#64, .system, flags false true)) ∧
    reading atPte .pt4k (walkOf atPte) ∧ (walkOf atPte).stage = .data ∧ (walkOf atPte).req.value = none ∧
    atPte.sl (.proc 1) 0xABCABC#64 = some 0xABCABC#64 ∧ atPte.broken (.proc 1) = false := by
  refine ⟨?_, ⟨rfl, rfl, rfl⟩, rfl, rfl, ?_, ?_⟩ <;> decide +kernel

theorem witness_LeafEntryServesWrite :
    leafView atPteWrite.cfg (walkOf atPteWrite).va (.pte4kb 0xABC#34 (flags false true)) =
      some (.pt4k, 0xABCABC#64, .system, flags false true) ∧
    reading atPteWrite .pt4k (walkOf atPteWrite) ∧ (walkOf atPteWrite).stage = .data ∧ (walkOf atPteWrite).req.value = some 5 ∧
    atPteWrite.sl (.proc 1) 0xABCABC#64 = some 0xABCABC#64 ∧ (walkOf atPteWrite).w = true ∧
    inGgtt atPteWrite.cfg .system 0xABCABC 4 = false ∧ inGgtt atPteWrite.cfg .system 0x1000ABC 4 = true ∧
    ((walkOf atPteWrite).w && (flags false false).rw) = false ∧ recoverable atPteWrite.cfg (.writeDenied 0x40201ABC#64) = true := by
  refine ⟨?_, ⟨rfl, rfl, rfl⟩, rfl, rfl, ?_⟩ <;> decide +kernel

theorem witness_NullLeafCompletesWithoutMemory :
    leafView atPteWrite.cfg (walkOf atPteWrite).va (.pte4kb 0#34 (flags true true)) = some (.pt4k, 0xABC#64, .system, flags true true) ∧
    leafView atPteWrite.cfg (walkOf atPteWrite).va (.pte4kb 0#34 (flags true false)) = some (.pt4k, 0xABC#64, .system, flags true false) ∧
    reading atPteWrite .pt4k (walkOf atPteWrite) ∧ (walkOf atPteWrite).stage = .data ∧
    ((walkOf atPteWrite).w && (flags true true).rw) = true ∧ (walkOf atPte).req.value = none ∧
    (walkOf atPteWrite).req.value.isSome = true ∧ ((walkOf atPteWrite).w && (flags true false).rw) = false ∧
    recoverable atPteWrite.cfg (.writeDenied 0x40201ABC#64) = true := by
  refine ⟨?_, ?_, ⟨rfl, rfl, rfl⟩, rfl, ?_⟩ <;> decide +kernel

theorem witness_LeafEntryServesATableRead :
    leafView atPteTable.cfg (walkOf atPteTable).va (.pte4kb 0x201#34 (flags false true)) =
      some (.pt4k, 0x201234#64, .system, flags false true) ∧
    leafView atPteTable.cfg (walkOf atPteTable).va (.pte4kb 0x201#34 (flags true true)) =
      some (.pt4k, 0x201234#64, .system, flags true true) ∧
    reading atPteTable .pt4k (walkOf atPteTable) ∧ (walkOf atPteTable).stage = .table .l2 ∧
    atPteTable.sl (.proc 1) 0x201234#64 = some 0x201234#64 := by
  refine ⟨?_, ?_, ⟨rfl, rfl, rfl⟩, rfl, ?_⟩ <;> decide +kernel

theorem witness_NotPresentEntryHaltsTheRequest : ∀ pos ∈ [Pos.ggtt, .pml4, .pdp, .pd, .pt4k, .pt64k],
    (let s := walking ppState pos 0x103020#64 (req (.proc 1) 0x40204000#64 (some 5)) .data
     reading s pos (walkOf s) ∧ ∀ l, recoverable s.cfg (.notPresent l (walkOf s).va) = true) :=
  fun _ _ => ⟨⟨rfl, rfl, rfl⟩, fun _ => rfl⟩

theorem witness_UnrepairableFaultAsksForReset : ∀ st ∈ [Stage.data, .table .l3, .table .l2, .table .l1],
    (let s : State := { ppState with walk := some { Walk.start (req (.proc 1) 0 none) TrRegs.reset with spurious := true, stage := st } }
     s.walk = some (walkOf s) ∧ levelOf (walkOf s).pos = some .pml4 ∧ (walkOf s).spurious = true ∧ (walkOf s).stage = st) :=
  fun _ _ => ⟨rfl, rfl, rfl, rfl⟩

/-- The WRITE about to read its page-table entry, in a spurious cycle or on a platform that repairs no fault. -/
def atPteDoomed (spurious : Bool) : State :=
  { atPteWrite with
    cfg := { atPteWrite.cfg with recover := if spurious then .always else .never }
    walk := some { walkOf atPteWrite with spurious := spurious } }

theorem witness_UnrepairableFaultAsksForReset_unrepairable : ∀ x,
    (atPteDoomed x).walk = some (walkOf (atPteDoomed x)) ∧ (walkOf (atPteDoomed x)).pos = .pt4k ∧
    (walkOf (atPteDoomed x)).stage = .data ∧ levelOf (walkOf (atPteDoomed x)).pos = some .pt ∧
    leafView (atPteDoomed x).cfg (walkOf (atPteDoomed x)).va (.pte4kb 0xABC#34 (flags false false)) =
      some (.pt4k, 0xABCABC#64, .system, flags false false) ∧
    leafView (atPteDoomed x).cfg (walkOf (atPteDoomed x)).va (.pte4kb 0#34 (flags true false)) =
      some (.pt4k, 0xABC#64, .system, flags true false) ∧
    (walkOf (atPteDoomed x)).req.value.isSome = true ∧ ((atPteDoomed x).sl (.proc 1) 0xABCABC#64).isSome = true ∧
    ((walkOf (atPteDoomed x)).spurious = true ∨
      recoverable (atPteDoomed x).cfg (.notPresent .pt 0x40201ABC#64) = false ∧
        recoverable (atPteDoomed x).cfg (.writeDenied 0x40201ABC#64) = false) := by decide +kernel

theorem witness_TrPointerReadsTheNextTable :
    trPointerView 0x70000C061234#64 (.trttL3Pointer 0x10001#36) = some (.trL3, .l2, 0x10001018#64, false) ∧
    trPointerView 0x70000C061234#64 (.trttL2Pointer 0x10002#36) = some (.trL2, .l1, 0x10002018#64, false) ∧
    trPointerView 0x70000C061234#64 (.trttL3Pointer 0x700000000#36) = some (.trL3, .l2, 0x700000000018#64, false) ∧
    reading (atTr .l3 none) .trL3 (walkOf (atTr .l3 none)) ∧ reading (atTr .l2 none) .trL2 (walkOf (atTr .l2 none)) ∧
    trDetect (walkOf (atTr .l3 none)).regs 0x10001018#64 = some false ∧
    trDetect (walkOf (atTr .l3 none)).regs 0x700000000018#64 = some true ∧
    tlbMisses (atTr .l3 none) (.proc 1) 0x10001018#64 ∧ walkable (atTr .l3 none) (.proc 1) := by
  refine ⟨by decide +kernel, by decide +kernel, by decide +kernel, ⟨rfl, rfl, rfl⟩, ⟨rfl, rfl, rfl⟩, by decide +kernel, by decide +kernel,
    ?_, by decide +kernel, by decide +kernel, Or.inl (by decide +kernel)⟩
  intro e he
  rw [show ((atTr .l3 none).ctx (.proc 1)).caches.tlb = [] by decide +kernel] at he
  cases he

theorem witness_DualContextRefusesBit47 : ∀ l ∈ [TrLevel.l3, .l2, .l1],
    (let s : State := { atTr l none with cfg := { trState.cfg with dualContext := true } }
     s.cfg.dualContext = true ∧ reading s l.pos (walkOf s) ∧ (0x800000000#36).getLsbD 35 = true ∧
     (0x80000000#32).getLsbD 31 = true ∧ 0x80000000#32 ≠ (walkOf s).regs.nulldet ∧ 0x80000000#32 ≠ (walkOf s).regs.invdet) :=
  fun l _ => ⟨rfl, ⟨rfl, rfl, rfl⟩, by decide +kernel, by decide +kernel, by cases l <;> decide +kernel, by cases l <;> decide +kernel⟩

theorem witness_NullTileCompletesWithoutMemory :
    (tileView regsTr .trttL3Null = some (.trL3, .null) ∧ tileView regsTr .trttL2Null = some (.trL2, .null) ∧
      tileView regsTr (.trttL1 0xFFFFFFFE#32) = some (.trL1, .null)) ∧
    (∀ l v, reading (atTr l v) l.pos (walkOf (atTr l v))) ∧ (walkOf (atTr .l1 none)).regs = regsTr :=
  ⟨by decide +kernel, fun _ _ => ⟨rfl, rfl, rfl⟩, by decide +kernel⟩

theorem witness_InvalidTileAlsoInterrupts :
    (tileView regsTr .trttL3Invalid = some (.trL3, .invalid) ∧ tileView regsTr .trttL2Invalid = some (.trL2, .invalid) ∧
      tileView regsTr (.trttL1 0xFFFFFFFF#32) = some (.trL1, .invalid)) ∧
    (∀ l v, reading (atTr l v) l.pos (walkOf (atTr l v))) ∧ (walkOf (atTr .l1 none)).regs = regsTr :=
  ⟨by decide +kernel, fun _ _ => ⟨rfl, rfl, rfl⟩, by decide +kernel⟩

theorem witness_MappedTileIsTranslatedByThePpgtt :
    reading (atTr .l1 none) .trL1 (walkOf (atTr .l1 none)) ∧ 0x4020#32 ≠ (walkOf (atTr .l1 none)).regs.nulldet ∧
    0x4020#32 ≠ (walkOf (atTr .l1 none)).regs.invdet ∧ ((atTr .l1 none).cfg.dualContext && (0x4020#32).getLsbD 31) = false ∧
    tlbMisses (atTr .l1 none) (.proc 1) 0x40201234#64 ∧ walkable (atTr .l1 none) (.proc 1) := by
  refine ⟨⟨rfl, rfl, rfl⟩, by decide +kernel, by decide +kernel, by decide +kernel, ?_, by decide +kernel, by decide +kernel,
    Or.inl (by decide +kernel)⟩
  intro e he
  rw [show ((atTr .l1 none).ctx (.proc 1)).caches.tlb = [] by decide +kernel] at he
  cases he

theorem witness_NullAndInvalidIsRefused :
    reading (atTr .l3 none) .trL3 (walkOf (atTr .l3 none)) ∧ reading (atTr .l2 none) .trL2 (walkOf (atTr .l2 none)) :=
  ⟨⟨rfl, rfl, rfl⟩, rfl, rfl, rfl⟩

/-- A TR-TT walk in a spurious cycle. -/
def spuriousTr (l : TrLevel) : State := { atTr l none with walk := some { walkOf (atTr l none) with spurious := true } }

theorem witness_NullAndInvalidEndsASpuriousCycle :
    ((spuriousTr .l3).walk = some (walkOf (spuriousTr .l3)) ∧ (walkOf (spuriousTr .l3)).spurious = true ∧
      (walkOf (spuriousTr .l3)).pos = .trL3) ∧
    ((spuriousTr .l2).walk = some (walkOf (spuriousTr .l2)) ∧ (walkOf (spuriousTr .l2)).spurious = true ∧
      (walkOf (spuriousTr .l2)).pos = .trL2) := by decide +kernel

theorem witness_RegisterReadsBackItsFields : perContext .trvattl3ptrDw0 = true ∧ perContext .trtte = true := by decide +kernel

theorem witness_RegisterReadHasNoSideEffect : perContext .trvattl3ptrDw1 = true ∧ perContext .trvadr = true := by decide +kernel

theorem witness_BypassBitIsWrittenAndRead :
    (RegName.trbypass = .trbypass ∨ RegName.trbypass = .offset 0x4DFC#32) ∧
    (RegName.offset 0x4DFC#32 = .trbypass ∨ RegName.offset 0x4DFC#32 = .offset 0x4DFC#32) := by decide +kernel

theorem witness_UnmodelledRegistersAreRefused :
    0x4DFB#32 ≠ 0x4DFC#32 ∧ State.reset.cfg.offsets.lookup 0x4DFB#32 = none := by decide +kernel

theorem witness_GgttUpdateStoresOneEntry :
    State.reset.cfg.ggttBase.extractLsb' 0 12 = 0 ∧ State.reset.cfg.ggttBase.toNat + 2 ^ 23 ≤ 2 ^ State.reset.cfg.haw.bits ∧
    State.reset.cfg.ggttBase.toNat + 8 * (0xFFFFF#20).toNat + 8 = State.reset.cfg.ggttBase.toNat + 2 ^ 23 := by decide +kernel

theorem witness_MiUpdateGttIsASequenceOfUpdates :
    State.reset.cfg.ggttBase.extractLsb' 0 12 = 0 ∧ State.reset.cfg.ggttBase.toNat + 2 ^ 23 ≤ 2 ^ State.reset.cfg.haw.bits ∧
    (∃ l1 l2, [(0x12#20, 1#64), (0x13#20, 2#64), (0x12#20, 3#64)] = l1 ++ (0x12#20, 3#64) :: l2 ∧ ∀ u ∈ l2, u.1 ≠ 0x12#20) ∧
    ¬ (0x800000 + 8 * (0x13#20).toNat ≤ 0x8000A0 ∧ 0x8000A0 < 0x800000 + 8 * (0x13#20).toNat + 8) ∧
    State.reset.cfg.ggttBase.toNat = 0x800000 :=
  ⟨by decide +kernel, by decide +kernel, ⟨[(0x12#20, 1#64), (0x13#20, 2#64)], [], rfl, by simp⟩, by decide +kernel, by decide +kernel⟩

theorem witness_BadGgttBaseRefusesUpdates :
    (0x00800001#64).extractLsb' 0 12 ≠ 0 ∧ (0x7FFFFFF000#64).extractLsb' 0 12 = 0 ∧
    ¬ (0x7FFFFFF000#64).toNat + 2 ^ 23 ≤ 2 ^ State.reset.cfg.haw.bits := by decide +kernel

theorem witness_TableWriteStoresItsBytes :
    (0x7FFFFFFFF8#64).toNat + 8 ≤ 2 ^ State.reset.cfg.haw.bits ∧ inGgtt State.reset.cfg .system (0x7FFFFFFFF8#64).toNat 8 = false ∧
    inGgtt State.reset.cfg .system (0x7FFFFF#64).toNat 1 = false ∧ inGgtt State.reset.cfg .system (0xFFFFFF#64).toNat 1 = true ∧
    2 ^ State.reset.cfg.haw.bits < (0x7FFFFFFFF8#64).toNat + 9 ∧ State.reset.cfg.hasLocalMemory = false := by decide +kernel

theorem witness_CtxLoadInstallsTheContext :
    State.reset.cfg.ctxLoadInvalidates = true ∧ State.reset.breach ≤ State.reset.clock := by decide

theorem witness_UnsuccessfulResponseEndsTheRequest :
    assocWf haltedState.halted = true ∧ (assocGet haltedState.halted 0).isSome = true ∧
    (haltedState.ctx (.proc 1)).pml4.toNat + 4096 ≤ 2 ^ haltedState.cfg.haw.bits := by decide +kernel

theorem witness_ResponseWithoutAFaultIsRefused : assocGet State.reset.halted 0 = none ∧ assocGet haltedState.halted 1 = none := by
  decide +kernel

end Sys2Proof.Tests
end

/-! # The end of a request

A request reads at most nineteen entries (10_state R64), so the walk an operation opens is run to its end; there the request's result has
been given, and NonRecoverable is given only with `needs_reset` set. -/

namespace Sys2Proof.Machine

section WalkLength

variable {s t : State} {wk : Walk} {n : Nat}

/-! ## How many entries are still to be read -/

/-- The entries still to be read once the address being walked is translated: for the data access none, for a TR-TT table read that
table's entry and those below it, each pointer behind four PPGTT entries, and four for the data address (41_trtt R175, R176). -/
def Stage.entriesLeft : Stage → Nat
  | .data => 0
  | .table .l1 => 5
  | .table .l2 => 10
  | .table .l3 => 15

/-- The most entries a walk still reads, the one at its position included (10_state R64). -/
def entriesLeft : Pos → Stage → Nat
  | .pml4, st => st.entriesLeft + 4
  | .pdp, st => st.entriesLeft + 3
  | .pd, st => st.entriesLeft + 2
  | .pt4k, st | .pt64k, st | .ggtt, st => st.entriesLeft + 1
  | .trL3, _ => 15
  | .trL2, _ => 10
  | .trL1, _ => 5

theorem entriesLeft_pos (p : Pos) (st : Stage) : 0 < entriesLeft p st := by cases p <;> simp [entriesLeft]

@[simp] theorem entriesLeft_trPos (l : TrLevel) (st : Stage) : entriesLeft l.pos st = (Stage.table l).entriesLeft := by
  cases l <;> rfl

/-- Behind a TR-TT entry there is room for the PPGTT walk of the data address. -/
theorem entriesLeft_data_le_trPos (l : TrLevel) (st : Stage) : entriesLeft .pml4 .data ≤ entriesLeft l.pos st - 1 := by
  rw [entriesLeft_trPos]
  cases l <;> decide

theorem Stage.entriesLeft_le (st : Stage) : st.entriesLeft ≤ 15 := by
  rcases st with _ | (_ | _ | _) <;> decide

/-- A level with a Present bit is a level of the GGTT or the PPGTT: its entry is read on the way to what the walk serves. -/
theorem stage_lt_entriesLeft_of_level {p : Pos} {l : Level} (st : Stage) (h : levelOf p = some l) :
    st.entriesLeft < entriesLeft p st := by
  cases p <;> simp_all [levelOf, entriesLeft]

@[simp] theorem noted_stage (wk : Walk) : wk.noted.stage = wk.stage := by unfold Walk.noted; split <;> rfl

/-! ## What an outcome leaves to do -/

/-- The request has ended: no walk is open, and a reset is expected where its result is NonRecoverable (60_exceptions R277). -/
def State.concluded (t : State) : Prop :=
  t.walk = none ∧ ∀ q d, t.result = .nonRecoverable q d → t.needsReset = true

/-- The request has ended, or its walk reads at most `n` more entries. -/
def State.within (t : State) (n : Nat) : Prop :=
  t.concluded ∨ ∃ wk, t.walk = some wk ∧ entriesLeft wk.pos wk.stage ≤ n

/-- Where the outcome is a next state, the request has ended in it or reads at most `n` more entries. -/
def Advances (n : Nat) (o : Out) : Prop := ∀ t, o = .next t → t.within n

theorem Advances.next (h : s.within n) : Advances n (.next s) := by rintro _ ⟨⟩; exact h
theorem Advances.concluded (h : s.concluded) : Advances n (.next s) := .next (.inl h)
theorem Advances.walk (hw : s.walk = some wk) (hn : entriesLeft wk.pos wk.stage ≤ n) : Advances n (.next s) :=
  .next (.inr ⟨wk, hw, hn⟩)
theorem Advances.refused (r : Refusal) : Advances n (.refused r) := by rintro _ ⟨⟩
theorem Advances.fault (f : Fault) : Advances n (.fault f) := by rintro _ ⟨⟩

/-! ## The end of a request -/

theorem endNonRecoverable_concluded (wk : Walk) (s : State) : (endNonRecoverable wk s).concluded := ⟨rfl, fun _ _ _ => rfl⟩

theorem endSpurious_concluded (wk : Walk) (s : State) : (endSpurious wk s).concluded := endNonRecoverable_concluded _ _

theorem complete_advances {r : Result} (hr : ∀ q d, r ≠ .nonRecoverable q d) : Advances n (complete wk r s) := by
  unfold complete
  split
  · exact .concluded (endSpurious_concluded _ _)
  · exact .concluded ⟨rfl, fun q d h => absurd h (hr q d)⟩

theorem refuseWalk_advances (why : Refusal) : Advances n (refuseWalk wk why s) := by
  unfold refuseWalk
  split
  · exact .concluded (endSpurious_concluded _ _)
  · exact .refused _

/-- A non-recoverable fault ends the request, or sends the walker to the TR-TT entry whose address was being translated. -/
theorem nonRecoverable_advances (hn : wk.stage.entriesLeft ≤ n) : Advances n (.next (nonRecoverable wk s)) := by
  unfold nonRecoverable
  split
  · exact .concluded (endNonRecoverable_concluded _ _)
  · next l hl => exact .walk rfl (by simpa [hl] using hn)

theorem raiseFault_advances (c : Cause) (hn : wk.stage.entriesLeft ≤ n) : Advances n (raiseFault wk c s) := by
  unfold raiseFault
  split
  · exact .concluded ⟨rfl, by simp⟩
  · exact nonRecoverable_advances hn

theorem nullCompletion_ne_nonRecoverable (q : Nat) (d : Option Nat) : nullCompletion wk ≠ .nonRecoverable q d := by
  unfold nullCompletion; split <;> simp

theorem nullTile_advances : Advances n (nullTile wk s) := complete_advances nullCompletion_ne_nonRecoverable

theorem invalidTile_advances : Advances n (invalidTile wk s) := complete_advances nullCompletion_ne_nonRecoverable

/-! ## The data access -/

theorem accessPhys_advances (sp : Space) (pa : Word64) (w : Bool) (hn : wk.stage.entriesLeft ≤ n) :
    Advances n (accessPhys wk sp pa w s) := by
  unfold accessPhys
  split
  · exact complete_advances (by simp)
  · split
    · exact raiseFault_advances _ hn
    · split
      · exact refuseWalk_advances _
      · exact complete_advances (by simp)

theorem accessNullPage_advances (w : Bool) (hn : wk.stage.entriesLeft ≤ n) : Advances n (accessNullPage wk w s) := by
  unfold accessNullPage
  split
  · exact raiseFault_advances _ hn
  · exact complete_advances nullCompletion_ne_nonRecoverable

theorem ggttDone_advances (out : Mapping) (hn : wk.stage.entriesLeft ≤ n) : Advances n (ggttDone wk out s) := by
  unfold ggttDone
  split
  · exact accessPhys_advances _ _ _ hn
  · exact accessNullPage_advances _ hn

theorem ppgttDone_advances (z : PageSize) (out : Mapping) (nested : Bool) (deps : List Dep) (hn : wk.stage.entriesLeft ≤ n) :
    Advances n (ppgttDone wk z out nested deps s) := by
  unfold ppgttDone
  split
  · split
    · exact refuseWalk_advances _
    · split
      · exact accessPhys_advances _ _ _ hn
      · next l hl => exact .walk rfl (by simpa [hl] using hn)
  · split
    · exact accessNullPage_advances _ hn
    · exact refuseWalk_advances _

/-! ## The start of a walk -/

theorem beginGgtt_advances (hn : entriesLeft .ggtt wk.stage ≤ n) : Advances n (beginGgtt wk s) := by
  unfold beginGgtt; dsimp only
  split
  · exact ggttDone_advances _ (Nat.le_trans (Nat.le_add_right _ _) hn)
  · split
    · exact refuseWalk_advances _
    · split
      · exact refuseWalk_advances _
      · exact .walk rfl hn

theorem beginPpgtt_advances (hn : entriesLeft .pml4 wk.stage ≤ n) : Advances n (beginPpgtt wk s) := by
  unfold beginPpgtt; dsimp only
  split
  · exact ppgttDone_advances _ _ _ _ (Nat.le_trans (Nat.le_add_right _ _) hn)
  · split
    · exact refuseWalk_advances _
    · split
      · exact .fault _
      · split
        · exact refuseWalk_advances _
        · exact .walk rfl hn

theorem tableRead_advances (l : TrLevel) (a : Word64) (hn : entriesLeft .pml4 (.table l) ≤ n) : Advances n (tableRead wk l a s) := by
  unfold tableRead
  split
  · exact refuseWalk_advances _
  · exact refuseWalk_advances _
  · exact beginPpgtt_advances hn

theorem tileDone_advances (o : TileOut) (hn : entriesLeft .pml4 .data ≤ n) : Advances n (tileDone wk o s) := by
  unfold tileDone
  split
  · exact beginPpgtt_advances hn
  · exact nullTile_advances
  · exact invalidTile_advances

theorem beginTrtt_advances : Advances walkBound (beginTrtt wk s) := by
  unfold beginTrtt; dsimp only
  split
  · exact tileDone_advances _ (by decide)
  · split
    · exact refuseWalk_advances _
    · split
      · exact refuseWalk_advances _
      · exact tableRead_advances _ _ (by decide)

theorem beginTranslate_advances (q : Request) : Advances walkBound (beginTranslate q s) := by
  unfold beginTranslate; dsimp only
  split
  · split
    · exact .refused _
    · exact beginGgtt_advances (show entriesLeft .ggtt .data ≤ walkBound by decide)
  · split
    · split
      · exact .refused _
      · split
        · exact beginTrtt_advances
        · exact .refused _
      · exact beginPpgtt_advances (show entriesLeft .pml4 .data ≤ walkBound by decide)
    · exact beginPpgtt_advances (show entriesLeft .pml4 .data ≤ walkBound by decide)
  · exact .refused _
  · exact .refused _

/-! ## The entries: each leaves fewer to read -/

theorem descend_advances (next : Pos) (base : Word64) (k : BitVec 9) (rw : Bool) (hn : entriesLeft next wk.stage ≤ n) :
    Advances n (descend wk next base k rw s) := by
  unfold descend
  split
  · exact refuseWalk_advances _
  · exact .walk rfl (by simpa using hn)

theorem leaf_advances (z : PageSize) (base : Word64) (sp : Space) (mt : BitVec 3) (f : LeafBits) (hn : wk.stage.entriesLeft ≤ n) :
    Advances n (leaf wk z base sp mt f s) :=
  ppgttDone_advances _ _ _ _ (by simpa using hn)

theorem tileFound_advances (o : TileOut) (hn : entriesLeft .pml4 .data ≤ n) : Advances n (tileFound wk o s) := tileDone_advances _ hn

theorem trDescend_advances (b : Bool) (l : TrLevel) (a : Word64) (hn : entriesLeft .pml4 (.table l) ≤ n) :
    Advances n (trDescend wk b l a s) := by
  unfold trDescend
  split
  · exact refuseWalk_advances _
  · exact tableRead_advances _ _ hn

/-- Whatever entry is executed, the walk has at least one entry less to read. -/
theorem execEntry_advances (i : Instr) (hs : s.walk = some wk) (hn : entriesLeft wk.pos wk.stage - 1 ≤ n) :
    Advances n (execEntry i s) := by
  have key : ∀ (pos : Pos) (f : Walk → Out), (entriesLeft pos wk.stage - 1 ≤ n → Advances n (f wk)) →
      Advances n (match s.walkAt pos with | none => .refused .entryOutOfPlace | some w => f w) := by
    intro pos f hf
    cases hp : s.walkAt pos with
    | none => exact .refused _
    | some w =>
      obtain ⟨hw, rfl⟩ := walkAt_eq.1 hp
      obtain rfl : wk = w := Option.some.inj (hs.symm.trans hw)
      exact hf hn
  cases i with
  | ggttPte a fn => exact key .ggtt _ fun h => ggttDone_advances _ (by rw [noted_stage]; exact h)
  | pml4e a rw => exact key .pml4 _ fun h => descend_advances _ _ _ _ h
  | pdpePd a rw => exact key .pdp _ fun h => descend_advances _ _ _ _ h
  | pdpe1gb a lm f => exact key .pdp _ fun h => leaf_advances _ _ _ _ _ (Nat.le_trans (Nat.le_add_right _ 2) h)
  | pdePt a x rw =>
    refine key .pd _ fun h => ?_
    split <;> exact descend_advances _ _ _ _ h
  | pde2mb a lm f => exact key .pd _ fun h => leaf_advances _ _ _ _ _ (Nat.le_trans (Nat.le_add_right _ 1) h)
  | pte64kb a lm f => exact key .pt64k _ fun h => leaf_advances _ _ _ _ _ h
  | pte4kb a f => exact key .pt4k _ fun h => leaf_advances _ _ _ _ _ h
  | notPresent =>
    simp only [execEntry, execNotPresent, hs]
    split
    · exact .refused _
    · next hl => exact raiseFault_advances _ (by have := stage_lt_entriesLeft_of_level wk.stage hl; omega)
  | trttL3Pointer a => exact key .trL3 _ fun h => trDescend_advances _ _ _ h
  | trttL3Null => exact key .trL3 _ fun h => tileFound_advances _ (Nat.le_trans (entriesLeft_data_le_trPos .l3 _) h)
  | trttL3Invalid => exact key .trL3 _ fun h => tileFound_advances _ (Nat.le_trans (entriesLeft_data_le_trPos .l3 _) h)
  | trttL3NullAndInvalid => exact key .trL3 _ fun _ => refuseWalk_advances _
  | trttL2Pointer a => exact key .trL2 _ fun h => trDescend_advances _ _ _ h
  | trttL2Null => exact key .trL2 _ fun h => tileFound_advances _ (Nat.le_trans (entriesLeft_data_le_trPos .l2 _) h)
  | trttL2Invalid => exact key .trL2 _ fun h => tileFound_advances _ (Nat.le_trans (entriesLeft_data_le_trPos .l2 _) h)
  | trttL2NullAndInvalid => exact key .trL2 _ fun _ => refuseWalk_advances _
  | trttL1 a =>
    refine key .trL1 _ fun h => ?_
    split
    · split
      · exact refuseWalk_advances _
      · exact tileFound_advances _ h
    · exact tileFound_advances _ h
    · exact tileFound_advances _ h
  | _ => exact .refused _

/-! ## The walk -/

theorem walkStep_advances (hs : s.walk = some wk) (hn : entriesLeft wk.pos wk.stage - 1 ≤ n) : Advances n (walkStep wk s) :=
  execEntry_advances _ (by rw [fetch_walk, hs]) hn

/-- A walk with at most `n` entries to read has ended after `n`. -/
theorem runWalk_concludes (h : s.within n) (ht : runWalk n s = .next t) : t.concluded := by
  induction n generalizing s with
  | zero =>
    cases ht
    obtain h | ⟨wk, -, hn⟩ := h
    · exact h
    · exact absurd hn (Nat.not_le.2 (entriesLeft_pos _ _))
  | succ n ih =>
    obtain ⟨hw, hr⟩ | ⟨wk, hw, hn⟩ := h
    · simp only [runWalk, hw] at ht
      cases ht
      exact ⟨hw, hr⟩
    · simp only [runWalk, hw] at ht
      split at ht
      · next s' hs' => exact ih (walkStep_advances hw (Nat.sub_le_of_le_add hn) s' hs') ht
      · cases ht
      · cases ht

theorem finish_concludes {o : Out} (h : Advances walkBound o) (ht : finish o = .next t) : t.concluded := by
  unfold finish at ht
  split at ht
  · next s => exact runWalk_concludes (h s rfl) ht
  · cases ht
  · cases ht

theorem runRequest_concludes {q : Request} (ht : runRequest q s = .next t) : t.concluded := by
  unfold runRequest at ht
  split at ht
  · cases ht
  · exact finish_concludes (beginTranslate_advances q) ht

/-- The response to a fault ends the request: by executing it again, or with NonRecoverable. -/
theorem execFaultResponse_concludes {k : Nat} {ok : Bool} (ht : execFaultResponse k ok s = .next t) : t.concluded := by
  unfold execFaultResponse at ht
  split at ht
  · cases ht
  · next h _ =>
    dsimp only at ht
    split at ht
    · exact runRequest_concludes ht
    · exact finish_concludes (nonRecoverable_advances (Nat.le_trans h.stage.entriesLeft_le (by decide))) ht

end WalkLength

/-! # What leaves `needs_reset` set -/

section NeedsReset

variable {s t : State} {q : Request}

/-! ## Requests -/

/-- No elementary change of a request clears `needs_reset`. -/
theorem Changes.needsReset (h : Changes q s t) (hs : s.needsReset = true) : t.needsReset = true := by
  refine Changes.rec_on (P := fun _ b => b.needsReset = true) h hs ?_
  intro a b hab ha
  cases hab <;> simp [ha]

/-- A response to a fault is a sequence of the halted request's elementary changes, its record erased. -/
theorem execFaultResponse_changes {k : Nat} {ok : Bool} (ht : execFaultResponse k ok s = .next t) :
    ∃ h, assocGet s.halted k = some h ∧ Changes h.req { s with halted := assocErase s.halted k, walk := none } t := by
  unfold execFaultResponse at ht
  split at ht
  · cases ht
  · next h hh =>
    refine ⟨h, hh, ?_⟩
    dsimp only at ht
    split at ht
    · exact runRequest_changes (by simp) t ht
    · exact finish_changes (by simp) (.next (nonRecoverable_changes rfl (pickRegs_changes _ .refl))) t ht

/-- With no walk in progress every entry is out of place (log 7). -/
theorem execEntry_of_no_walk (hs : s.walk = none) (i : Instr) : execEntry i s = .refused .entryOutOfPlace := by
  have key : ∀ (pos : Pos) (f : Walk → Out),
      (match s.walkAt pos with | none => .refused .entryOutOfPlace | some w => f w) = Host.Outcome.refused .entryOutOfPlace := by
    intro pos f
    have hp : s.walkAt pos = none := by simp [State.walkAt, hs]
    rw [hp]
  cases i with
  | notPresent => simp only [execEntry, execNotPresent, hs]
  | read | write | mmioWrite | mmioRead | ggttUpdate | miUpdateGtt | tableWrite | ctxLoad | faultResponse | ackInvalidTile | reset => rfl
  | _ => exact key _ _

/-- An entry answers a next state only in a walk, and then by elementary changes of the walk's request. -/
theorem execEntry_next_changes {i : Instr} (h : execEntry i s = .next t) : ∃ wk, s.walk = some wk ∧ Changes wk.req s t := by
  cases hs : s.walk with
  | some wk => exact ⟨wk, rfl, execEntry_changes i hs rfl .refl t h⟩
  | none =>
    rw [execEntry_of_no_walk hs] at h
    cases h

/-- An entry means the same outside an operation as within one. -/
theorem exec_eq_execEntry {i : Instr} (hi : positions i ≠ []) : exec i s = execEntry i s := by
  cases i with
  | read | write | mmioWrite | mmioRead | ggttUpdate | miUpdateGtt | tableWrite | ctxLoad | faultResponse | ackInvalidTile | reset =>
    exact absurd rfl hi
  | _ => rfl

theorem exec_entry_needsReset {i : Instr} (hi : positions i ≠ []) (hs : s.needsReset = true) (h : exec i s = .next t) :
    t.needsReset = true := by
  rw [exec_eq_execEntry hi] at h
  obtain ⟨wk, -, hc⟩ := execEntry_next_changes h
  exact hc.needsReset hs

/-! ## The host's operations -/

theorem writeCtxReg_needsReset {r : RegName} {c : CtxId} {v : Word32} (h : writeCtxReg r c v s = .next t) :
    t.needsReset = s.needsReset := by
  unfold writeCtxReg at h
  split at h
  · cases h
  · split at h
    · cases h
    · cases h; simp

theorem readCtxReg_needsReset {r : RegName} {c : CtxId} (h : readCtxReg r c s = .next t) : t.needsReset = s.needsReset := by
  unfold readCtxReg at h
  split at h
  · cases h
  · split at h
    · cases h
    · cases h; rfl

theorem execMmioWrite_needsReset {r : RegName} {c : CtxId} {v : Word32} (h : execMmioWrite r c v s = .next t) :
    t.needsReset = s.needsReset := by
  unfold execMmioWrite at h
  cases hr : resolve s.cfg r <;> simp only [hr, reduceCtorEq] at h
  case trbypass => cases h; rfl
  all_goals exact writeCtxReg_needsReset h

theorem execMmioRead_needsReset {r : RegName} {c : CtxId} (h : execMmioRead r c s = .next t) : t.needsReset = s.needsReset := by
  unfold execMmioRead at h
  cases hr : resolve s.cfg r <;> simp only [hr, reduceCtorEq] at h
  case trbypass | nullcnt => cases h; rfl
  all_goals exact readCtxReg_needsReset h

@[simp] theorem writeGgttEntry_needsReset (w : Agent) (s : State) (u : BitVec 20 × Word64) :
    (writeGgttEntry w s u).needsReset = s.needsReset := rfl

@[simp] theorem foldl_writeGgttEntry_needsReset (w : Agent) (l : List (BitVec 20 × Word64)) (s : State) :
    (l.foldl (writeGgttEntry w) s).needsReset = s.needsReset := by
  induction l generalizing s with
  | nil => rfl
  | cons u l ih => exact (ih _).trans (writeGgttEntry_needsReset w s u)

theorem execGgttUpdate_needsReset {k : BitVec 20} {e : Word64} (h : execGgttUpdate k e s = .next t) : t.needsReset = s.needsReset := by
  unfold execGgttUpdate at h
  split at h
  · cases h
  · cases h; rfl

theorem execMiUpdateGtt_needsReset {l : List (BitVec 20 × Word64)} (h : execMiUpdateGtt l s = .next t) :
    t.needsReset = s.needsReset := by
  unfold execMiUpdateGtt at h
  split at h
  · cases h
  · cases h; simp

theorem execTableWrite_needsReset {sp : Space} {pa : Word64} {n v : Nat} (h : execTableWrite sp pa n v s = .next t) :
    t.needsReset = s.needsReset := by
  unfold execTableWrite at h
  split at h
  · cases h; rfl
  · split at h
    · cases h
    · split at h
      · cases h
      · split at h
        · cases h
        · cases h; rfl

theorem execCtxLoad_needsReset {c : CtxId} {m : CtxImage} (h : execCtxLoad c m s = .next t) : t.needsReset = s.needsReset := by
  unfold execCtxLoad at h; dsimp only at h
  split at h
  · cases h; simp
  · split at h <;> cases h <;> simp

/-! ## Every instruction -/

/-- READ, WRITE and FAULT_RESPONSE end the request they perform. -/
theorem exec_request_concludes {i : Instr}
    (hi : (∃ e x g n, i = .read e x g n) ∨ (∃ e x g n v, i = .write e x g n v) ∨ (∃ k ok, i = .faultResponse k ok))
    (h : exec i s = .next t) : t.concluded := by
  obtain ⟨e, x, g, n, rfl⟩ | ⟨e, x, g, n, v, rfl⟩ | ⟨k, ok, rfl⟩ := hi
  · exact runRequest_concludes h
  · exact runRequest_concludes h
  · exact execFaultResponse_concludes h

/-- No instruction but RESET clears `needs_reset`. -/
theorem exec_needsReset {i : Instr} (hi : i ≠ .reset) (hs : s.needsReset = true) (h : exec i s = .next t) : t.needsReset = true := by
  cases i with
  | read e c g n => exact (runRequest_changes (by simp) t h).needsReset hs
  | write e c g n v => exact (runRequest_changes (by simp) t h).needsReset hs
  | faultResponse k ok =>
    obtain ⟨_, -, hc⟩ := execFaultResponse_changes h
    exact hc.needsReset hs
  | mmioWrite r c v => exact (execMmioWrite_needsReset h).trans hs
  | mmioRead r c => exact (execMmioRead_needsReset h).trans hs
  | ggttUpdate k e => exact (execGgttUpdate_needsReset h).trans hs
  | miUpdateGtt l => exact (execMiUpdateGtt_needsReset h).trans hs
  | tableWrite sp pa n v => exact (execTableWrite_needsReset h).trans hs
  | ctxLoad c m => exact (execCtxLoad_needsReset h).trans hs
  | ackInvalidTile => cases h; exact hs
  | reset => exact absurd rfl hi
  | _ => exact exec_entry_needsReset (by simp [positions]) hs h

end NeedsReset

/-- Settles O13: a request has concluded when its operation ends, and NonRecoverable concludes it only with the flag set; no elementary
change of a request and no other operation but RESET clears the flag. -/
theorem needsResetIsSetByNonRecoverableAndClearedOnlyByReset :
    Obligations.NeedsResetIsSetByNonRecoverableAndClearedOnlyByReset := by
  refine ⟨?_, ?_, ?_⟩
  · intro i s t q d hi h hr
    obtain ⟨-, hflag⟩ := exec_request_concludes hi h
    exact hflag q d hr
  · intro i s t hi hs h
    exact exec_needsReset hi hs h
  · intro s
    exact ⟨_, rfl, rfl⟩

end Sys2Proof.Machine

/-! # Ignored bits

Every field the decoder reads lies in the bits its format names, so two words that agree on those bits decode to the same instruction; only
the Function Number of a GGTT entry is carried without being named, and the entry's meaning does not read it. -/

namespace Sys2Proof.Machine

section IgnoredBits

variable {p : Params} {m m' v w : Word64} {lo n : Nat}

/-! ## Words that agree on the bits of a mask -/

/-- Two words have the same bits wherever a mask is set. -/
def AgreeOn (m v w : Word64) : Prop := ∀ i, m.getLsbD i = true → v.getLsbD i = w.getLsbD i

/-- Agreement in the form 30_encoding R135 gives it: no difference inside the mask. -/
theorem agreeOn_of_xor_and (h : (v ^^^ w) &&& m = 0) : AgreeOn m v w := by
  intro i hi
  have hbit : ((v ^^^ w) &&& m).getLsbD i = false := by simp [h]
  simpa [hi] using hbit

theorem AgreeOn.mono (h : AgreeOn m v w) (hm : m' &&& m = m') : AgreeOn m' v w := by
  intro i hi
  rw [← hm, BitVec.getLsbD_and, Bool.and_eq_true] at hi
  exact h i hi.2

theorem agreeOn_or : AgreeOn (m ||| m') v w ↔ AgreeOn m v w ∧ AgreeOn m' v w := by
  simp only [AgreeOn, BitVec.getLsbD_or, Bool.or_eq_true, or_imp, forall_and]

/-- A field inside the mask has the same value in both words. -/
theorem AgreeOn.extractLsb' (h : AgreeOn m v w) (hm : ∀ i < n, m.getLsbD (lo + i) = true) :
    v.extractLsb' lo n = w.extractLsb' lo n := by
  ext i hi
  simpa [hi] using h _ (hm i hi)

/-! ## The fields of an entry -/

/-- The bits of the field ADDR [HAW-1:lo], as `namedBits` writes them. -/
def addrMask (p : Params) (lo : Nat) : Word64 := belowHaw p (BitVec.allOnes 64) >>> lo <<< lo

/-- The field ADDR reads nothing outside `addrMask`, whatever the host address width is. -/
theorem AgreeOn.addrField (h : AgreeOn (addrMask p lo) v w) (n : Nat) :
    (belowHaw p v).extractLsb' lo n = (belowHaw p w).extractLsb' lo n := by
  ext i hi
  have hbit := h (lo + i)
  simp only [belowHaw, addrMask, BitVec.allOnes_and, BitVec.getLsbD_shiftLeft, BitVec.getLsbD_ushiftRight] at hbit
  simp only [belowHaw, BitVec.getElem_extractLsb', BitVec.getLsbD_and]
  by_cases hlt : lo + i < 64
  · cases hb : (BitVec.ofNat 64 (2 ^ p.haw.bits - 1)).getLsbD (lo + i)
    · simp
    · simpa using hbit (by simpa [hlt] using hb)
  · simp [BitVec.getLsbD_of_ge _ _ (Nat.le_of_not_lt hlt)]

theorem AgreeOn.frameField (h : AgreeOn (addrMask p 12) v w) : frameField p v = frameField p w := h.addrField 34

theorem AgreeOn.leafBits (h : AgreeOn 0x29B#64 v w) : leafBits v = leafBits w := by
  simp only [Sys2Proof.leafBits, h 9 (by decide), h 7 (by decide), h 4 (by decide), h 3 (by decide), h 1 (by decide)]

/-! ## GGTT and PPGTT entries -/

/-- A GGTT or PPGTT entry with bit 0 clear is NOT_PRESENT (60_exceptions R261). -/
theorem decodeEntry_of_not_present {pos : Pos} (hpos : (levelOf pos).isSome = true) (hv : v.getLsbD 0 = false) :
    decodeEntry p pos v = .notPresent := by
  cases pos with
  | trL3 | trL2 | trL1 => cases hpos
  | ggtt | pml4 | pdp | pd | pt4k | pt64k => simp only [decodeEntry, hv, Bool.false_eq_true, if_false]

/-- Whatever else they name, the GGTT and PPGTT formats name the Present bit. -/
theorem namedBits_present {pos : Pos} (hpos : (levelOf pos).isSome = true) : (namedBits p pos v).getLsbD 0 = true := by
  cases pos with
  | trL3 | trL2 | trL1 => cases hpos
  | ggtt | pml4 | pdp | pd | pt4k | pt64k =>
    simp only [namedBits]
    split_ifs <;> simp

theorem decodePdpe_congr (hv : v.getLsbD 0 = true) (hleaf : isLeaf p .pdp v = isLeaf p .pdp w)
    (h : AgreeOn (namedBits p .pdp v) v w) : decodePdpe p v = decodePdpe p w := by
  unfold decodePdpe
  rw [← hleaf]
  simp only [namedBits, hv, Bool.not_true, Bool.false_eq_true, if_false] at h
  split_ifs at h ⊢
  · obtain ⟨haddr, hflags⟩ := agreeOn_or.1 h
    rw [haddr.addrField, hflags 11 (by decide), (hflags.mono (by decide)).leafBits]
  · obtain ⟨haddr, hflags⟩ := agreeOn_or.1 h
    rw [haddr.frameField, hflags 1 (by decide)]

theorem decodePde_congr (hv : v.getLsbD 0 = true) (hleaf : isLeaf p .pd v = isLeaf p .pd w)
    (h : AgreeOn (namedBits p .pd v) v w) : decodePde p v = decodePde p w := by
  unfold decodePde
  rw [← hleaf]
  simp only [namedBits, hv, Bool.not_true, Bool.false_eq_true, if_false] at h
  split_ifs at h ⊢
  · obtain ⟨haddr, hflags⟩ := agreeOn_or.1 h
    rw [haddr.addrField, hflags 11 (by decide), (hflags.mono (by decide)).leafBits]
  · obtain ⟨haddr, hflags⟩ := agreeOn_or.1 h
    rw [haddr.frameField, hflags 11 (by decide), hflags 1 (by decide)]

/-- The meaning of a GGTT entry does not read the Function Number (42_ggtt R201). -/
theorem exec_ggttPte_fn (a : BitVec 34) (f g : BitVec 3) (s : State) : exec (.ggttPte a f) s = exec (.ggttPte a g) s := rfl

/-! ## TR-TT entries -/

/-- The two flags of a TR-TT pointer-level entry, and its address where both are clear, are all that its format names. -/
theorem trEntry_congr (h : AgreeOn (namedBits p .trL3 v) v w) :
    v.getLsbD 0 = w.getLsbD 0 ∧ v.getLsbD 1 = w.getLsbD 1 ∧
      (w.getLsbD 0 = false → w.getLsbD 1 = false → v.extractLsb' 12 36 = w.extractLsb' 12 36) := by
  simp only [namedBits] at h
  split_ifs at h with hflags
  · have h0 := h 0 (by decide)
    have h1 := h 1 (by decide)
    refine ⟨h0, h1, fun hw0 hw1 => ?_⟩
    rw [Bool.or_eq_true, h0, h1, hw0, hw1] at hflags
    simp at hflags
  · exact ⟨h 0 (by decide), h 1 (by decide), fun _ _ => h.extractLsb' (by decide)⟩

theorem decodeTrL3_congr (h : AgreeOn (namedBits p .trL3 v) v w) : decodeTrL3 v = decodeTrL3 w := by
  obtain ⟨h0, h1, haddr⟩ := trEntry_congr h
  unfold decodeTrL3
  rw [h0, h1]
  cases hw0 : w.getLsbD 0 with
  | true => cases w.getLsbD 1 <;> rfl
  | false =>
    cases hw1 : w.getLsbD 1 with
    | true => rfl
    | false => exact congrArg Instr.trttL3Pointer (haddr hw0 hw1)

theorem decodeTrL2_congr (h : AgreeOn (namedBits p .trL2 v) v w) : decodeTrL2 v = decodeTrL2 w := by
  obtain ⟨h0, h1, haddr⟩ := trEntry_congr (p := p) h
  unfold decodeTrL2
  rw [h0, h1]
  cases hw0 : w.getLsbD 0 with
  | true => cases w.getLsbD 1 <;> rfl
  | false =>
    cases hw1 : w.getLsbD 1 with
    | true => rfl
    | false => exact congrArg Instr.trttL2Pointer (haddr hw0 hw1)

/-! ## Every position -/

/-- Present entries of the GGTT and the PPGTT. -/
theorem exec_decodeEntry_congr_of_present {s : State} {pos : Pos} (hpos : (levelOf pos).isSome = true)
    (hv : v.getLsbD 0 = true) (hw : w.getLsbD 0 = true) (h : AgreeOn (namedBits s.cfg pos v) v w)
    (hpdp : pos = .pdp → isLeaf s.cfg .pdp v = isLeaf s.cfg .pdp w)
    (hpd : pos = .pd → isLeaf s.cfg .pd v = isLeaf s.cfg .pd w) :
    exec (decodeEntry s.cfg pos v) s = exec (decodeEntry s.cfg pos w) s := by
  cases pos <;> simp only [decodeEntry, hv, hw, if_true]
  case ggtt =>
    rw [namedBits, if_pos hv] at h
    obtain ⟨haddr, -⟩ := agreeOn_or.1 h
    rw [haddr.frameField, exec_ggttPte_fn]
  case pml4 =>
    rw [namedBits, if_pos hv] at h
    obtain ⟨haddr, hflags⟩ := agreeOn_or.1 h
    rw [haddr.frameField, hflags 1 (by decide)]
  case pdp => rw [decodePdpe_congr hv (hpdp rfl) h]
  case pd => rw [decodePde_congr hv (hpd rfl) h]
  case pt4k =>
    rw [namedBits, if_pos hv] at h
    obtain ⟨haddr, hflags⟩ := agreeOn_or.1 h
    rw [haddr.frameField, hflags.leafBits]
  case pt64k =>
    rw [namedBits, if_pos hv] at h
    obtain ⟨haddr, hflags⟩ := agreeOn_or.1 h
    rw [haddr.addrField, hflags 11 (by decide), (hflags.mono (by decide)).leafBits]
  case trL3 | trL2 | trL1 => cases hpos

/-- TR-TT entries: the decoded instruction itself is the same. -/
theorem decodeEntry_congr_of_tr {pos : Pos} (hpos : levelOf pos = none) (h : AgreeOn (namedBits p pos v) v w) :
    decodeEntry p pos v = decodeEntry p pos w := by
  cases pos with
  | trL3 => exact decodeTrL3_congr h
  | trL2 => exact decodeTrL2_congr h
  | trL1 =>
    have hword : v.extractLsb' 0 32 = w.extractLsb' 0 32 := AgreeOn.extractLsb' (m := 0xFFFFFFFF#64) h (by decide)
    simp only [decodeEntry, BitVec.setWidth_eq_extractLsb' (show 32 ≤ 64 by decide), hword]
  | ggtt | pml4 | pdp | pd | pt4k | pt64k => cases hpos

end IgnoredBits

/-- Settles O4, by the Present bit: it is named, so both words are present or both are NOT_PRESENT, and a present format's fields all lie in
the bits it names. -/
theorem ignoredBitsDoNotMatter : Obligations.IgnoredBitsDoNotMatter := by
  intro s pos v w hxor hpdp hpd
  have h : AgreeOn (namedBits s.cfg pos v) v w := agreeOn_of_xor_and hxor
  cases hpos : levelOf pos with
  | none => rw [decodeEntry_congr_of_tr hpos h]
  | some l =>
    have hpos : (levelOf pos).isSome = true := by rw [hpos]; rfl
    have hpresent : v.getLsbD 0 = w.getLsbD 0 := h 0 (namedBits_present hpos)
    cases hv : v.getLsbD 0 with
    | false => rw [decodeEntry_of_not_present hpos hv, decodeEntry_of_not_present hpos (hpresent ▸ hv)]
    | true => exact exec_decodeEntry_congr_of_present hpos hv (hpresent ▸ hv) h hpdp hpd

end Sys2Proof.Machine

/-! # Tiles

A TR-TT entry that settles its tile is put into the TR TLB; then a Null tile completes the request, and a mapped tile starts the PPGTT walk
of the data address. Of the state that the frames of claims speak of, both touch what is cached of the request's context only, and a Null
tile the Null-tile counter beside it. -/

namespace Sys2Proof.Machine

section Tiles

variable {s t u : State} {c : CtxId} {wk : Walk} {pos : Pos} {va : Word64}

/-! ## Updates of one context's caches -/

/-- From `s` to `t` the registers, both memories and the exception state stay, and of the contexts' records the hidden state of `c` alone
may differ. The Null-tile counter is not spoken of. -/
structure TouchesOnlyCaches (c : CtxId) (s t : State) : Prop where
  cfg : t.cfg = s.cfg
  mem : t.mem = s.mem
  epoch : t.epoch = s.epoch
  trbypass : t.trbypass = s.trbypass
  pgtblCtl2 : t.pgtblCtl2 = s.pgtblCtl2
  pending : samePending s t
  context : ∃ h, t.ctx c = { s.ctx c with caches := h }
  others : sameOtherContexts s t c

namespace TouchesOnlyCaches

theorem trans (h : TouchesOnlyCaches c s t) (h' : TouchesOnlyCaches c t u) : TouchesOnlyCaches c s u where
  cfg := h'.cfg.trans h.cfg
  mem := h'.mem.trans h.mem
  epoch := h'.epoch.trans h.epoch
  trbypass := h'.trbypass.trans h.trbypass
  pgtblCtl2 := h'.pgtblCtl2.trans h.pgtblCtl2
  pending := by
    obtain ⟨hhalted, hreset, hirq⟩ := h.pending
    obtain ⟨hhalted', hreset', hirq'⟩ := h'.pending
    exact ⟨hhalted'.trans hhalted, hreset'.trans hreset, hirq'.trans hirq⟩
  context := by
    obtain ⟨_, hc⟩ := h.context
    obtain ⟨k, hc'⟩ := h'.context
    exact ⟨k, by rw [hc', hc]⟩
  others := fun c' hc => (h'.others c' hc).trans (h.others c' hc)

/-- The walk, the result, the free values drawn and the Null-tile counter may change beside the caches. -/
theorem setProgress (h : TouchesOnlyCaches c s t) (w : Option Walk) (r : Result) (d : Nat) (v : Word32) :
    TouchesOnlyCaches c s { t with walk := w, result := r, draws := d, nullcnt := v } :=
  h.trans ⟨rfl, rfl, rfl, rfl, rfl, ⟨rfl, rfl, rfl⟩, ⟨_, ctx_congr rfl rfl c⟩, fun c' _ => ctx_congr rfl rfl c'⟩

theorem fillTrTlb (s : State) (c : CtxId) (e : TrTlbEntry) : TouchesOnlyCaches c s (s.fillTrTlb c e) where
  cfg := fillTrTlb_cfg s c e
  mem := fillTrTlb_mem s c e
  epoch := fillTrTlb_epoch s c e
  trbypass := fillTrTlb_trbypass s c e
  pgtblCtl2 := fillTrTlb_pgtblCtl2 s c e
  pending := ⟨fillTrTlb_halted s c e, fillTrTlb_needsReset s c e, fillTrTlb_irqInvalidTile s c e⟩
  context := by
    obtain ⟨_, hctx, -⟩ := ctx_fillTrTlb_same s c e
    exact ⟨_, hctx⟩
  others := fun _ hc => ctx_fillTrTlb_other s c e hc

theorem fillPml4 (s : State) (c : CtxId) (page : Word64) : TouchesOnlyCaches c s (s.fillPml4 c page) where
  cfg := fillPml4_cfg s c page
  mem := fillPml4_mem s c page
  epoch := fillPml4_epoch s c page
  trbypass := fillPml4_trbypass s c page
  pgtblCtl2 := fillPml4_pgtblCtl2 s c page
  pending := ⟨fillPml4_halted s c page, fillPml4_needsReset s c page, fillPml4_irqInvalidTile s c page⟩
  context := ⟨_, ctx_fillPml4_same s c page⟩
  others := fun _ hc => ctx_fillPml4_other s c page hc

theorem sameMemory (h : TouchesOnlyCaches c s t) : sameMemory s t := fun sp a => by
  rw [State.byteAt, State.byteAt, h.mem, h.epoch]

theorem sameRegisters (h : TouchesOnlyCaches c s t) : sameRegisters s t := by
  refine ⟨h.cfg, h.trbypass, h.pgtblCtl2, fun c' => ?_⟩
  by_cases hc : c' = c
  · obtain ⟨_, hctx⟩ := h.context
    rw [hc, hctx]
    exact ⟨rfl, rfl, rfl, rfl, rfl, rfl⟩
  · rw [h.others c' hc]
    exact ⟨rfl, rfl, rfl, rfl, rfl, rfl⟩

theorem unchanged (h : TouchesOnlyCaches c s t) (hn : sameCounter s t) : unchanged s t :=
  ⟨h.sameMemory, h.sameRegisters, h.pending, hn⟩

/-- What a PPGTT walk needs to begin is not in the caches. -/
theorem walkable (h : TouchesOnlyCaches c s t) (hw : walkable s c) : walkable t c := by
  obtain ⟨_, hctx⟩ := h.context
  rw [Machine.walkable, hctx, h.cfg]
  exact hw

end TouchesOnlyCaches

/-! ## The start of a PPGTT walk -/

/-- The TR TLB is not the TLB: filling it makes no per-process address hit. -/
theorem tlbMisses_fillTrTlb (h : tlbMisses s c va) (e : TrTlbEntry) : tlbMisses (s.fillTrTlb c e) c va := by
  obtain ⟨_, hctx, -⟩ := ctx_fillTrTlb_same s c e
  rw [tlbMisses, hctx]
  exact h

theorem lookupTlb_of_tlbMisses (h : tlbMisses s c va) : s.lookupTlb c false va = (none, s) := by
  have hnil : ((s.ctx c).caches.tlb.filter fun e => e.global == false && e.vbase == pageBase e.size va) = [] := by
    rw [List.filter_eq_nil_iff]
    intro e he
    simpa using h e he
  rw [State.lookupTlb, hnil]
  rfl

/-- The second level is there where NESTE is clear or a second level is supplied (43_ppgtt R239). -/
theorem sl_eq_some_of_walkable (h : walkable s c) (a : Word64) : ∃ pa, s.sl c a = some pa := by
  obtain ⟨-, -, hsl⟩ := h
  unfold State.sl State.slAs
  cases hn : (s.ctx c).neste with
  | false => exact ⟨a, rfl⟩
  | true =>
    rw [hn] at hsl
    simp only [hsl.resolve_left (by decide), Bool.not_true, Bool.false_eq_true, if_false]
    exact ⟨_, rfl⟩

/-- The walk about to read the PML4 entry of its address in the table in a physical page (43_ppgtt R218). -/
def Walk.atPml4 (wk : Walk) (page : Word64) : Walk :=
  { wk with pos := .pml4, space := .system, pa := entry8 page (idx4 wk.va), w := true, deps := [], forced := none }

/-- Where the TLB holds nothing for the address and a walk can begin, it begins at the PML4 entry; only the context's PML4 cache may be
filled by it (43_ppgtt R218, R240). -/
theorem beginPpgtt_of_tlbMisses (hmiss : tlbMisses s wk.req.ctx wk.va) (hw : walkable s wk.req.ctx) :
    ∃ t page, beginPpgtt wk s = .next t ∧ t.walk = some (wk.atPml4 page) ∧ TouchesOnlyCaches wk.req.ctx s t ∧ sameCounter s t := by
  obtain ⟨page, hpage⟩ := sl_eq_some_of_walkable hw (s.ctx wk.req.ctx).pml4
  obtain ⟨halign, hmem, -⟩ := hw
  have haligned : aligned4k (s.ctx wk.req.ctx).pml4 = true := by rw [aligned4k, halign]; rfl
  have hexists : inMemory s.cfg (s.ctx wk.req.ctx).pml4.toNat 4096 = true := decide_eq_true hmem
  have hbegin : beginPpgtt wk s = .next { s.fillPml4 wk.req.ctx page with walk := some (wk.atPml4 page) } := by
    simp only [beginPpgtt, lookupTlb_of_tlbMisses hmiss, haligned, hexists, hpage, Bool.not_true, Bool.false_eq_true, if_false,
      Walk.atPml4]
  exact ⟨_, page, hbegin, rfl, (TouchesOnlyCaches.fillPml4 s wk.req.ctx page).setProgress _ _ _ _, fillPml4_nullcnt s wk.req.ctx page⟩

/-! ## The outcome of a tile -/

/-- An entry that settles its tile goes the way of that outcome, unless it is an address that Dual Context refuses (41_trtt R178, R179,
R189). -/
theorem exec_of_tileView {i : Instr} {o : TileOut} (hview : tileView wk.regs i = some (pos, o)) (hr : reading s pos wk)
    (hdual : ∀ e, o = .mapped e → (s.cfg.dualContext && e.getLsbD 31) = false) : exec i s = tileFound wk o s := by
  obtain ⟨hwalk, hpos, -⟩ := hr
  have hat : s.walkAt pos = some wk := walkAt_eq.2 ⟨hwalk, hpos⟩
  cases i with
  | trttL3Null => cases hview; simp only [exec, execTrttL3Null, hat]
  | trttL3Invalid => cases hview; simp only [exec, execTrttL3Invalid, hat]
  | trttL2Null => cases hview; simp only [exec, execTrttL2Null, hat]
  | trttL2Invalid => cases hview; simp only [exec, execTrttL2Invalid, hat]
  | trttL1 e =>
    obtain ⟨rfl, ho⟩ : Pos.trL1 = pos ∧ l1Outcome wk.regs e = o := by simpa [tileView, l1Outcome] using hview
    simp only [exec, execTrttL1, hat, ho]
    cases o with
    | null | invalid => rfl
    | mapped a => simp only [hdual a rfl, Bool.false_eq_true, if_false]
  | _ => cases hview

/-- The outcome is put into the TR TLB before the request goes on (41_trtt R175). -/
theorem tileFound_eq_tileDone (wk : Walk) (o : TileOut) (s : State) :
    ∃ x, tileFound wk o s = tileDone wk.trNoted o (s.fillTrTlb wk.req.ctx x) := ⟨_, rfl⟩

theorem nullCompletion_eq_zeroCompletion (wk : Walk) : nullCompletion wk = zeroCompletion wk.req := by
  unfold nullCompletion zeroCompletion
  cases wk.req.value <;> rfl

theorem nullTile_of_not_spurious (hs : wk.spurious = false) (s : State) :
    nullTile wk s = .next { nullTileSeen s with walk := none, result := zeroCompletion wk.req } := by
  rw [nullTile, complete, hs, nullCompletion_eq_zeroCompletion]
  rfl

/-- The address a mapped tile gives has 48 bits already (30_encoding R127). -/
theorem va48_trOutput (e : Word32) (gva : Word64) : va48 (trOutput e gva) = (0 : BitVec 16) ++ e ++ gva.extractLsb' 0 16 := by
  rw [va48, ← BitVec.setWidth_eq_extractLsb' (by decide), trOutput, BitVec.setWidth_setWidth_of_le (k := 48) _ (by decide),
    BitVec.setWidth_eq, BitVec.setWidth_eq_append (by decide), BitVec.append_assoc]
  rfl

end Tiles

/-- Settles O42: a Null outcome at any of the three levels fills the TR TLB and completes the request. -/
theorem nullTileCompletesWithoutMemory : Obligations.NullTileCompletesWithoutMemory := by
  intro s wk i pos hview hr
  have ⟨_, _, hspurious⟩ := hr
  obtain ⟨x, hfound⟩ := tileFound_eq_tileDone wk .null s
  have hexec : exec i s = .next { nullTileSeen (s.fillTrTlb wk.req.ctx x) with walk := none, result := zeroCompletion wk.req } :=
    calc exec i s = tileFound wk .null s := exec_of_tileView hview hr (by rintro _ ⟨⟩)
      _ = nullTile wk.trNoted (s.fillTrTlb wk.req.ctx x) := hfound
      _ = _ := nullTile_of_not_spurious hspurious _
  have hframe := (TouchesOnlyCaches.fillTrTlb s wk.req.ctx x).setProgress none (zeroCompletion wk.req)
  exact ⟨_, hexec, rfl, rfl, (hframe _ _).sameMemory, (hframe _ _).sameRegisters, (hframe _ _).pending, (hframe _ _).others⟩

/-- Settles O44: the mapped outcome fills the TR TLB, which leaves the TLB and the PML4 pointer as they are, and the PPGTT walk begins. -/
theorem mappedTileIsTranslatedByThePpgtt : Obligations.MappedTileIsTranslatedByThePpgtt := by
  intro s wk e hr hnull hinvalid hdual a hmiss hwalkable
  have ⟨_, _, hspurious⟩ := hr
  have hview : tileView wk.regs (.trttL1 e) = some (.trL1, .mapped e) := by simp only [tileView, hinvalid, hnull, if_false]
  have hva : va48 (trOutput e wk.req.gva) = a := va48_trOutput e wk.req.gva
  obtain ⟨x, hfound⟩ := tileFound_eq_tileDone wk (.mapped e) s
  have hfill := TouchesOnlyCaches.fillTrTlb s wk.req.ctx x
  obtain ⟨t, page, hbegin, hwalk, hframe, hcounter⟩ := beginPpgtt_of_tlbMisses (s := s.fillTrTlb wk.req.ctx x)
    (wk := { wk.trNoted with stage := .data, va := va48 (trOutput e wk.req.gva), forced := none })
    (hva ▸ tlbMisses_fillTrTlb hmiss x) (hfill.walkable hwalkable)
  have hexec : exec (.trttL1 e) s = .next t :=
    calc exec (.trttL1 e) s = tileFound wk (.mapped e) s := exec_of_tileView hview hr (by rintro _ ⟨⟩; exact hdual)
      _ = tileMapped wk.trNoted e (s.fillTrTlb wk.req.ctx x) := hfound
      _ = .next t := hbegin
  have htotal := hfill.trans hframe
  exact ⟨t, _, hexec, hwalk, rfl, rfl, hva, rfl, hspurious, rfl,
    htotal.unchanged (hcounter.trans (fillTrTlb_nullcnt s wk.req.ctx x)), htotal.others⟩

end Sys2Proof.Machine

/-! # Reset and hazards

A walk of the PPGTT in a context whose TLB is empty begins by filling the context's PML4 cache; what is cached there stays until RESET or a
CTX_LOAD of the context, and the walker reads its PML4 entries from it (70_reset_and_hazards R311, 43_ppgtt R240). While a reset is
expected no request is admitted (R314). -/

namespace Sys2Proof.Machine

section FrozenPml4

variable {s t u : State} {c : CtxId} {q : Request} {wk : Walk} {x : Pml4Cache}

/-! ## What keeps the cached PML4 -/

/-- Where the PML4 of a context is cached in `s`, the same entries are cached in `t`. -/
def KeepsPml4 (c : CtxId) (s t : State) : Prop :=
  ∀ x, (s.ctx c).caches.pml4c = some x → (t.ctx c).caches.pml4c = some x

theorem KeepsPml4.of_pml4c (h : (t.ctx c).caches.pml4c = (s.ctx c).caches.pml4c) : KeepsPml4 c s t := fun _ hx => h.trans hx

theorem KeepsPml4.of_ctx (h : t.ctx c = s.ctx c) : KeepsPml4 c s t := .of_pml4c (by rw [h])

theorem KeepsPml4.trans (h : KeepsPml4 c s t) (h' : KeepsPml4 c t u) : KeepsPml4 c s u := fun x hx => h' x (h x hx)

theorem KeepsPml4.isSome (h : KeepsPml4 c s t) (hs : (s.ctx c).caches.pml4c.isSome = true) :
    (t.ctx c).caches.pml4c.isSome = true := by
  obtain ⟨x, hx⟩ := Option.isSome_iff_exists.1 hs
  rw [h x hx]
  rfl

@[simp] theorem fillTlb_pml4c (s : State) (c c' : CtxId) (e : TlbEntry) :
    ((s.fillTlb c' e).ctx c).caches.pml4c = (s.ctx c).caches.pml4c := by
  by_cases hc : c = c'
  · subst hc
    obtain ⟨_, hctx, -⟩ := ctx_fillTlb_same s c e
    rw [hctx]
  · rw [ctx_fillTlb_other s c' e hc]

@[simp] theorem fillTrTlb_pml4c (s : State) (c c' : CtxId) (e : TrTlbEntry) :
    ((s.fillTrTlb c' e).ctx c).caches.pml4c = (s.ctx c).caches.pml4c := by
  by_cases hc : c = c'
  · subst hc
    obtain ⟨_, hctx, -⟩ := ctx_fillTrTlb_same s c e
    rw [hctx]
  · rw [ctx_fillTrTlb_other s c' e hc]

@[simp] theorem setRegs_pml4c (s : State) (k : Nat) (r : TrRegs) (c : CtxId) :
    ((s.setRegs k r).ctx c).caches.pml4c = (s.ctx c).caches.pml4c := by
  by_cases hc : c = .proc k
  · subst hc
    obtain ⟨_, hctx, -⟩ := ctx_setRegs_same s k r
    rw [hctx]
  · rw [ctx_setRegs_other s k r hc]

/-- The PML4 cache is filled once: entries that are there stay (43_ppgtt R240). -/
theorem fillPml4_keepsPml4 (s : State) (c c' : CtxId) (page : Word64) : KeepsPml4 c s (s.fillPml4 c' page) := by
  by_cases hc : c = c'
  · subst hc
    intro x hx
    rw [ctx_fillPml4_same, hx]
    rfl
  · exact .of_ctx (ctx_fillPml4_other s c' page hc)

theorem fillPml4_isSome (s : State) (c : CtxId) (page : Word64) : ((s.fillPml4 c page).ctx c).caches.pml4c.isSome = true := by
  rw [ctx_fillPml4_same]
  rfl

/-! ## Requests keep it -/

theorem Change.keepsPml4 (h : Change q s t) : KeepsPml4 c s t := by
  cases h with
  | tlb e => exact .of_pml4c (fillTlb_pml4c s c q.ctx e)
  | trTlb e => exact .of_pml4c (fillTrTlb_pml4c s c q.ctx e)
  | pml4 page => exact fillPml4_keepsPml4 s c q.ctx page
  | draw | walk | result | irq | halt | nullcnt | needsReset | store | spurious => exact .of_ctx (ctx_congr rfl rfl c)

theorem Changes.keepsPml4 (h : Changes q s t) : KeepsPml4 c s t :=
  Changes.rec_on (P := KeepsPml4 c) h (.of_ctx rfl) fun _ _ hab ha => ha.trans hab.keepsPml4

/-! ## The host's operations keep it -/

/-- A write of a context's register is a `setRegs` of some process context. -/
theorem writeCtxReg_next {r : RegName} {d : CtxId} {v : Word32} (h : writeCtxReg r d v s = .next t) :
    ∃ k regs, t = { s.setRegs k regs with result := .done } := by
  unfold writeCtxReg at h
  split at h
  · cases h
  · split at h <;> cases h
    exact ⟨_, _, rfl⟩

theorem writeCtxReg_keepsPml4 {r : RegName} {d : CtxId} {v : Word32} (h : writeCtxReg r d v s = .next t) : KeepsPml4 c s t := by
  obtain ⟨k, regs, rfl⟩ := writeCtxReg_next h
  exact (KeepsPml4.of_pml4c (setRegs_pml4c s k regs c)).trans (.of_ctx (ctx_congr rfl rfl c))

theorem execMmioWrite_keepsPml4 {r : RegName} {d : CtxId} {v : Word32} (h : execMmioWrite r d v s = .next t) : KeepsPml4 c s t := by
  unfold execMmioWrite at h
  cases hr : resolve s.cfg r <;> simp only [hr, reduceCtorEq] at h
  case trbypass => cases h; exact .of_ctx (ctx_congr rfl rfl c)
  all_goals exact writeCtxReg_keepsPml4 h

theorem readCtxReg_ctx {r : RegName} {d : CtxId} (h : readCtxReg r d s = .next t) : t.ctx c = s.ctx c := by
  unfold readCtxReg at h
  split at h
  · cases h
  · split at h <;> cases h
    exact ctx_congr rfl rfl c

theorem execMmioRead_ctx {r : RegName} {d : CtxId} (h : execMmioRead r d s = .next t) : t.ctx c = s.ctx c := by
  unfold execMmioRead at h
  cases hr : resolve s.cfg r <;> simp only [hr, reduceCtorEq] at h
  case trbypass | nullcnt => cases h; exact ctx_congr rfl rfl c
  all_goals exact readCtxReg_ctx h

theorem foldl_writeGgttEntry_ctx (w : Agent) (l : List (BitVec 20 × Word64)) (s : State) :
    (l.foldl (writeGgttEntry w) s).ctx c = s.ctx c := by
  induction l generalizing s with
  | nil => rfl
  | cons u l ih => exact (ih _).trans (physWrite_ctx ..)

theorem execGgttUpdate_ctx {k : BitVec 20} {e : Word64} (h : execGgttUpdate k e s = .next t) : t.ctx c = s.ctx c := by
  unfold execGgttUpdate at h
  split at h <;> cases h
  exact ctx_congr rfl rfl c

theorem execMiUpdateGtt_ctx {l : List (BitVec 20 × Word64)} (h : execMiUpdateGtt l s = .next t) : t.ctx c = s.ctx c := by
  unfold execMiUpdateGtt at h
  split at h <;> cases h
  exact (ctx_congr rfl rfl c).trans (foldl_writeGgttEntry_ctx .commandStreamer l s)

/-- Whatever a TABLE_WRITE stores, and wherever, no context's record changes: a store to a cached table is not seen. -/
theorem execTableWrite_ctx {sp : Space} {pa : Word64} {n v : Nat} (h : execTableWrite sp pa n v s = .next t) : t.ctx c = s.ctx c := by
  unfold execTableWrite at h
  split at h
  · cases h; exact ctx_congr rfl rfl c
  · split at h
    · cases h
    · split at h
      · cases h
      · split at h <;> cases h
        exact ctx_congr rfl rfl c

theorem execCtxLoad_ctx_other {d : CtxId} {m : CtxImage} (hd : c ≠ d) (h : execCtxLoad d m s = .next t) : t.ctx c = s.ctx c := by
  unfold execCtxLoad at h; dsimp only at h
  split at h
  · cases h; exact (ctx_congr rfl rfl c).trans (ctx_setCtx_other s d _ hd)
  · split at h <;> cases h
    · exact (ctx_congr rfl rfl c).trans ((ctx_setRegs_other _ _ _ hd).trans (ctx_setCtx_other s _ _ hd))
    · exact (ctx_congr rfl rfl c).trans (ctx_setCtx_other s _ _ hd)
    · exact ctx_congr rfl rfl c

/-! ## Every instruction but RESET and CTX_LOAD keeps it -/

theorem execFaultResponse_keepsPml4 {k : Nat} {ok : Bool} (h : execFaultResponse k ok s = .next t) : KeepsPml4 c s t := by
  obtain ⟨_, -, hc⟩ := execFaultResponse_changes h
  exact (KeepsPml4.of_ctx (ctx_congr rfl rfl c)).trans hc.keepsPml4

theorem exec_entry_keepsPml4 {i : Instr} (hi : positions i ≠ []) (h : exec i s = .next t) : KeepsPml4 c s t := by
  rw [exec_eq_execEntry hi] at h
  obtain ⟨_, -, hc⟩ := execEntry_next_changes h
  exact hc.keepsPml4

theorem exec_keepsPml4 {i : Instr} (hreset : i ≠ .reset) (hload : ∀ m, i ≠ .ctxLoad c m) (h : exec i s = .next t) :
    KeepsPml4 c s t := by
  cases i with
  | read e d g n => exact (KeepsPml4.of_ctx (ctx_congr rfl rfl c)).trans (runRequest_changes (by simp) t h).keepsPml4
  | write e d g n v => exact (KeepsPml4.of_ctx (ctx_congr rfl rfl c)).trans (runRequest_changes (by simp) t h).keepsPml4
  | faultResponse k ok => exact execFaultResponse_keepsPml4 h
  | mmioWrite r d v => exact execMmioWrite_keepsPml4 h
  | mmioRead r d => exact .of_ctx (execMmioRead_ctx h)
  | ggttUpdate k e => exact .of_ctx (execGgttUpdate_ctx h)
  | miUpdateGtt l => exact .of_ctx (execMiUpdateGtt_ctx h)
  | tableWrite sp pa n v => exact .of_ctx (execTableWrite_ctx h)
  | ctxLoad d m => exact .of_ctx (execCtxLoad_ctx_other (fun hd => hload m (by rw [hd])) h)
  | ackInvalidTile => cases h; exact .of_ctx (ctx_congr rfl rfl c)
  | reset => exact absurd rfl hreset
  | _ => exact exec_entry_keepsPml4 (by simp [positions]) h

/-! ## The first walk fills it -/

theorem refuseWalk_ne_next (hs : wk.spurious = false) (why : Refusal) : refuseWalk wk why s ≠ .next t := by
  rw [refuseWalk, hs]
  rintro ⟨⟩

theorem tlbMisses_of_nil (h : (s.ctx c).caches.tlb = []) (va : Word64) : tlbMisses s c va := by simp [tlbMisses, h]

theorem lookupTrTlb_of_nil (h : (s.ctx c).caches.trTlb = []) (gva : Word64) : s.lookupTrTlb c gva = (none, s) := by
  rw [State.lookupTrTlb, h]
  rfl

theorem pickRegs_ctx (s : State) (c c' : CtxId) : (s.pickRegs c').2.ctx c = s.ctx c := by
  unfold State.pickRegs; dsimp only
  split
  · rfl
  · exact ctx_congr rfl rfl c

/-- A PPGTT translation that the TLB does not give begins with a walk, and a walk begins with the PML4 cached (43_ppgtt R240). -/
theorem beginPpgtt_caches_pml4 (hmiss : tlbMisses s wk.req.ctx wk.va) (hs : wk.spurious = false)
    (h : beginPpgtt wk s = .next t) : (t.ctx wk.req.ctx).caches.pml4c.isSome = true := by
  simp only [beginPpgtt, lookupTlb_of_tlbMisses hmiss] at h
  split at h
  · exact absurd h (refuseWalk_ne_next hs _)
  · split at h
    · cases h
    · split at h
      · exact absurd h (refuseWalk_ne_next hs _)
      · next page _ =>
        cases h
        exact (KeepsPml4.of_ctx (ctx_congr rfl rfl _)).isSome (fillPml4_isSome s wk.req.ctx page)

theorem tableRead_caches_pml4 {l : TrLevel} {a : Word64} (htlb : (s.ctx wk.req.ctx).caches.tlb = []) (hs : wk.spurious = false)
    (h : tableRead wk l a s = .next t) : (t.ctx wk.req.ctx).caches.pml4c.isSome = true := by
  unfold tableRead at h
  split at h
  · exact absurd h (refuseWalk_ne_next hs _)
  · exact absurd h (refuseWalk_ne_next hs _)
  · exact beginPpgtt_caches_pml4 (wk := { wk with stage := .table l, va := va48 a, forced := none }) (tlbMisses_of_nil htlb _) hs h

/-- With an empty TR TLB a TR-TT walk begins with the read of its L3 table, whose address the PPGTT translates (41_trtt R176). -/
theorem beginTrtt_caches_pml4 (htlb : (s.ctx wk.req.ctx).caches.tlb = []) (htr : (s.ctx wk.req.ctx).caches.trTlb = [])
    (hs : wk.spurious = false) (h : beginTrtt wk s = .next t) : (t.ctx wk.req.ctx).caches.pml4c.isSome = true := by
  simp only [beginTrtt, lookupTrTlb_of_nil htr] at h
  split at h
  · exact absurd h (refuseWalk_ne_next hs _)
  · split at h
    · exact absurd h (refuseWalk_ne_next hs _)
    · exact tableRead_caches_pml4 htlb hs h

/-- A request of a PPGTT context that nothing is cached of begins with a PPGTT walk: of its own address or of the L3 table's. -/
theorem beginTranslate_caches_pml4 (hkind : (s.ctx q.ctx).kind = .ppgtt48) (htlb : (s.ctx q.ctx).caches.tlb = [])
    (htr : (s.ctx q.ctx).caches.trTlb = []) (h : beginTranslate q s = .next t) : (t.ctx q.ctx).caches.pml4c.isSome = true := by
  have htlb' : ((s.pickRegs q.ctx).2.ctx q.ctx).caches.tlb = [] := by rw [pickRegs_ctx, htlb]
  have htr' : ((s.pickRegs q.ctx).2.ctx q.ctx).caches.trTlb = [] := by rw [pickRegs_ctx, htr]
  have hwalk : ∀ {t}, beginPpgtt (Walk.start q (s.pickRegs q.ctx).1) (s.pickRegs q.ctx).2 = .next t →
      (t.ctx q.ctx).caches.pml4c.isSome = true := beginPpgtt_caches_pml4 (tlbMisses_of_nil htlb' _) rfl
  simp only [beginTranslate, hkind] at h
  split at h
  · split at h
    · cases h
    · split at h
      · exact beginTrtt_caches_pml4 (wk := Walk.start q (s.pickRegs q.ctx).1) htlb' htr' rfl h
      · cases h
    · exact hwalk h
  · exact hwalk h

/-- A request that answers a next state has been admitted, and the rest of it is elementary changes of the state its translation begins
in. -/
theorem runRequest_next (h0 : s.walk = none) (h : runRequest q s = .next t) :
    admission q s = none ∧ ∃ s1, beginTranslate q s = .next s1 ∧ Changes q s1 t := by
  unfold runRequest at h
  split at h
  · cases h
  · next hadm =>
    refine ⟨hadm, ?_⟩
    unfold finish at h
    split at h
    · next s1 hb =>
      have hreq : ∀ wk, s1.walk = some wk → wk.req = q := (beginTranslate_changes .refl s1 hb).walk_req (by simp [h0])
      exact ⟨s1, hb, runWalk_changes _ .refl hreq t h⟩
    · cases h
    · cases h

theorem runRequest_caches_pml4 (h0 : s.walk = none) (hkind : (s.ctx q.ctx).kind = .ppgtt48) (htlb : (s.ctx q.ctx).caches.tlb = [])
    (htr : (s.ctx q.ctx).caches.trTlb = []) (h : runRequest q s = .next t) : (t.ctx q.ctx).caches.pml4c.isSome = true := by
  obtain ⟨-, s1, hbegin, hrest⟩ := runRequest_next h0 h
  exact hrest.keepsPml4.isSome (beginTranslate_caches_pml4 hkind htlb htr hbegin)

/-! ## The walker reads it -/

/-- The PML4 entry the walker gets is the cached one, whatever memory holds (43_ppgtt R240). -/
theorem fetch_of_pml4_cached (hforced : wk.forced = none) (hpos : wk.pos = .pml4)
    (hx : (s.ctx wk.req.ctx).caches.pml4c = some x) :
    fetch wk s = (decodeEntry s.cfg .pml4 (x.entries.getD (idx4 wk.va).toNat 0), s) := by
  simp only [fetch, fetchWord, hforced, hpos, hx]

end FrozenPml4

/-- Settles O14: the first walk fills the PML4 cache and the rest of the request keeps it; so does every elementary change of a request and
every operation but RESET and the context's CTX_LOAD; a fetch at the PML4 looks in the cache. -/
theorem pml4IsFrozenAtFirstUse : Obligations.Pml4IsFrozenAtFirstUse := by
  refine ⟨?_, ?_, ?_⟩
  · intro s t e c gva n hkind htlb htr h
    have hctx : ({ s with nextReq := s.nextReq + 1, walk := none } : State).ctx c = s.ctx c := ctx_congr rfl rfl c
    exact runRequest_caches_pml4 rfl (by rw [hctx, hkind]) (by rw [hctx, htlb]) (by rw [hctx, htr]) h
  · intro i s t c x hreset hload hx h
    exact exec_keepsPml4 hreset hload h x hx
  · intro s wk x hwalk hforced hpos hx
    simp only [step, hwalk, fetch_of_pml4_cached hforced hpos hx]

section ResetExpected

variable {s : State}

/-- Admission looks at `needs_reset` last, so an expected reset leaves no request admitted (60_exceptions R277 b). -/
theorem admission_of_needsReset (q : Request) (hs : s.needsReset = true) : ∃ why, admission q s = some why := by
  simp only [admission, hs, if_true]
  split_ifs <;> exact ⟨_, rfl⟩

theorem runRequest_of_needsReset (q : Request) (hs : s.needsReset = true) : ∃ why, runRequest q s = .refused why := by
  obtain ⟨why, hadm⟩ := admission_of_needsReset q hs
  exact ⟨why, by simp only [runRequest, hadm]⟩

/-- A successful response to a halted request runs it again from its admission, its record erased (60_exceptions R274). -/
theorem execFaultResponse_ok {k : Nat} {h : Halted} (hk : assocGet s.halted k = some h) :
    execFaultResponse k true s = runRequest h.req { s with halted := assocErase s.halted k, walk := none } := by
  simp only [execFaultResponse, hk, if_true]

end ResetExpected

/-- Settles O30: every request goes through admission, a halted one again, and admission refuses while a reset is expected. -/
theorem afterANonRecoverableFaultRequestsAreRefused : Obligations.AfterANonRecoverableFaultRequestsAreRefused := by
  intro s hs
  refine ⟨fun e c g n => runRequest_of_needsReset _ hs, fun e c g n v => runRequest_of_needsReset _ hs, fun k h hk => ?_⟩
  obtain ⟨why, hrefused⟩ := runRequest_of_needsReset (s := { s with halted := assocErase s.halted k, walk := none }) h.req hs
  exact ⟨why, (execFaultResponse_ok hk).trans hrefused⟩

end Sys2Proof.Machine

/-! # Decoding what is encoded

An entry's word is its ADDR field shifted into place beside single bits, so each field the decoder takes out is the one that was put in;
ADDR below HAW survives the decoder's cut (30_encoding R135), and the select condition of a level 3 or 2 format is part of being
well-formed (R128, R129). -/

namespace Sys2Proof.Machine

section DecodeEncode

variable {p : Params} {i : Instr} {pos : Pos} {w : Word64} {n lo : Nat}

/-! ## The bits of a word put together from fields -/

theorem getLsbD_bitAt (b : Bool) {k : Nat} (hk : k < 64) (j : Nat) : (bitAt b k).getLsbD j = (b && decide (j = k)) := by
  unfold bitAt
  by_cases hj : j = k
  · subst hj; cases b <;> simp [hk]
  · cases b
    · simp
    · simp only [BitVec.getLsbD_shiftLeft, BitVec.getLsbD_setWidth, BitVec.getLsbD_ofBool, hj]
      simp; omega

/-- A single bit below the ADDR field is not part of it. -/
theorem addrField_or_bitAt (w : Word64) (b : Bool) {k : Nat} (hk : k < 64) (h : k < lo) :
    (belowHaw p (w ||| bitAt b k)).extractLsb' lo n = (belowHaw p w).extractLsb' lo n := by
  ext j
  have hj : lo + j ≠ k := by omega
  simp [belowHaw, getLsbD_bitAt b hk, hj, ← BitVec.getLsbD_eq_getElem]

/-- The Function Number lies below ADDR (30_encoding R114). -/
theorem addrField_or_fn (w : Word64) (fn : BitVec 3) :
    (belowHaw p (w ||| fn.setWidth 64 <<< 2)).extractLsb' 12 n = (belowHaw p w).extractLsb' 12 n := by
  ext j
  have hfn : fn.getLsbD (12 + j - 2) = false := BitVec.getLsbD_of_ge _ _ (by omega)
  simp [belowHaw, hfn, ← BitVec.getLsbD_eq_getElem]

theorem getLsbD_belowHaw (p : Params) (w : Word64) (j : Nat) :
    (belowHaw p w).getLsbD j = (w.getLsbD j && decide (j < p.haw.bits)) := by
  by_cases hj : j < 64
  · simp only [belowHaw, BitVec.getLsbD_and, BitVec.getLsbD_ofNat, Nat.testBit_two_pow_sub_one, hj, decide_true, Bool.true_and]
  · simp only [BitVec.getLsbD_of_ge _ j (Nat.not_lt.1 hj), Bool.false_and]

/-- An ADDR field that stays below HAW is taken out as it was put in (30_encoding R135). -/
theorem addrField_shiftLeft (a : BitVec n) (hn : lo + n ≤ 64) (h : fitsHaw p lo a.toNat = true) :
    (belowHaw p (a.setWidth 64 <<< lo)).extractLsb' lo n = a := by
  have hfit : a.toNat * 2 ^ lo < 2 ^ p.haw.bits := of_decide_eq_true h
  apply BitVec.eq_of_getLsbD_eq
  intro j hj
  have hbelow : a.getLsbD j = true → lo + j < p.haw.bits := by
    intro hbit
    have hle : 2 ^ j ≤ a.toNat := Nat.ge_two_pow_of_testBit hbit
    have hmul : 2 ^ (lo + j) ≤ a.toNat * 2 ^ lo := by
      rw [Nat.pow_add, Nat.mul_comm]; exact Nat.mul_le_mul_right _ hle
    exact (Nat.pow_lt_pow_iff_right (by decide)).1 (Nat.lt_of_le_of_lt hmul hfit)
  have h64 : lo + j < 64 := by omega
  simp only [BitVec.getLsbD_extractLsb', hj, getLsbD_belowHaw, BitVec.getLsbD_shiftLeft, BitVec.getLsbD_setWidth, h64]
  cases hbit : a.getLsbD j <;> simp [hbit, hbelow]
  omega

theorem getElem_bitAt (b : Bool) {k : Nat} (hk : k < 64) (j : Nat) (hj : j < 64) : (bitAt b k)[j] = (b && decide (j = k)) := by
  rw [← BitVec.getLsbD_eq_getElem, getLsbD_bitAt b hk]

/-- The flags of a leaf entry lie below ADDR at every page size (30_encoding R117 to R121). -/
theorem addrField_or_encodeLeafBits (w : Word64) (f : LeafBits) (h : 9 < lo) :
    (belowHaw p (w ||| encodeLeafBits f)).extractLsb' lo n = (belowHaw p w).extractLsb' lo n := by
  simp only [encodeLeafBits, ← BitVec.or_assoc]
  rw [addrField_or_bitAt _ _ (by decide) (by omega), addrField_or_bitAt _ _ (by decide) (by omega),
    addrField_or_bitAt _ _ (by decide) (by omega), addrField_or_bitAt _ _ (by decide) (by omega),
    addrField_or_bitAt _ _ (by decide) h]

/-- The flags of a leaf entry are taken out as they were put in, beside a word that has none of their bits. -/
theorem leafBits_or_encodeLeafBits (w : Word64) (f : LeafBits) (hw : leafBits w = ⟨false, false, false, false, false⟩) :
    leafBits (w ||| encodeLeafBits f ||| bitAt true 0) = f := by
  obtain ⟨h9, h7, h4, h3, h1⟩ : w[9] = false ∧ w[7] = false ∧ w[4] = false ∧ w[3] = false ∧ w[1] = false := by
    simpa [leafBits] using hw
  simp [leafBits, encodeLeafBits, getElem_bitAt, h9, h7, h4, h3, h1]

/-- The fields of a leaf entry that has a Local Memory bit (30_encoding R117, R119, R120). -/
theorem leafWord_fields (a : BitVec n) (lm : Bool) (f : LeafBits) (hlo : 11 < lo) (hn : lo + n ≤ 64) (hfit : fitsHaw p lo a.toNat = true)
    (hw : w = a.setWidth 64 <<< lo ||| bitAt lm 11 ||| encodeLeafBits f ||| bitAt true 0) :
    (belowHaw p w).extractLsb' lo n = a ∧ w.getLsbD 11 = lm ∧ leafBits w = f ∧ w.getLsbD 0 = true := by
  subst hw
  refine ⟨?_, ?_, leafBits_or_encodeLeafBits _ f ?_, ?_⟩
  · rw [addrField_or_bitAt _ _ (by decide) (by omega), addrField_or_encodeLeafBits _ _ (by omega),
      addrField_or_bitAt _ _ (by decide) hlo, addrField_shiftLeft a hn hfit]
  · simp [encodeLeafBits, getElem_bitAt, hlo]
  · simp [leafBits, getElem_bitAt]
    omega
  · simp [getElem_bitAt]

/-! ## Words -/

theorem leafIs_eq {l : Level} {want : Bool} (h : leafIs p l want i = true) (hw : encodeWord i = some w) : isLeaf p l w = want := by
  simpa [leafIs, hw] using h

/-- The word of a well-formed entry decodes to it, at every position that reads its format (30_encoding R114 to R124, R128). -/
theorem decodeEntry_encodeWord (hwf : wellFormed p i = true) (hpos : pos ∈ positions i) (hw : encodeWord i = some w) :
    decodeEntry p pos w = i := by
  cases i with
  | ggttPte a fn =>
    obtain rfl : pos = .ggtt := by simpa [positions] using hpos
    cases hw
    have haddr : frameField p (a.setWidth 64 <<< 12 ||| fn.setWidth 64 <<< 2 ||| bitAt true 0) = a := by
      rw [frameField, addrField_or_bitAt _ _ (by decide) (by decide), addrField_or_fn, addrField_shiftLeft a (by decide) hwf]
    have hfn : (a.setWidth 64 <<< 12 ||| fn.setWidth 64 <<< 2 ||| bitAt true 0).extractLsb' 2 3 = fn := by
      ext j hj
      have h1 : 2 + j < 12 := by omega
      have h2 : ¬ 2 + j ≤ 1 := by omega
      have h3 : 2 + j < 64 := by omega
      simp [getElem_bitAt, h1, h2, h3, hj]
    simp [decodeEntry, haddr, hfn, getElem_bitAt]
  | pml4e a rw =>
    obtain rfl : pos = .pml4 := by simpa [positions] using hpos
    cases hw
    simp [decodeEntry, frameField, getElem_bitAt, addrField_or_bitAt, addrField_shiftLeft a _ hwf]
  | pdpePd a rw =>
    obtain rfl : pos = .pdp := by simpa [positions] using hpos
    obtain ⟨hfit, hsel⟩ : fitsHaw p 12 a.toNat = true ∧ leafIs p .pdp false (.pdpePd a rw) = true := by
      simpa [wellFormed] using hwf
    have hleaf := leafIs_eq hsel hw
    cases hw
    simp [decodeEntry, decodePdpe, hleaf, frameField, getElem_bitAt, addrField_or_bitAt, addrField_shiftLeft a _ hfit]
  | pdpe1gb a lm f =>
    obtain rfl : pos = .pdp := by simpa [positions] using hpos
    obtain ⟨hfit, hsel⟩ : fitsHaw p 30 a.toNat = true ∧ leafIs p .pdp true (.pdpe1gb a lm f) = true := by
      simpa [wellFormed] using hwf
    obtain ⟨haddr, hlm, hf, hpresent⟩ := leafWord_fields a lm f (by decide) (by decide) hfit (Option.some.inj hw).symm
    simp only [decodeEntry, decodePdpe, leafIs_eq hsel hw, haddr, hlm, hf, hpresent, if_true]
  | pdePt a x rw =>
    obtain rfl : pos = .pd := by simpa [positions] using hpos
    obtain ⟨hfit, hsel⟩ : fitsHaw p 12 a.toNat = true ∧ leafIs p .pd false (.pdePt a x rw) = true := by
      simpa [wellFormed] using hwf
    have hleaf := leafIs_eq hsel hw
    cases hw
    simp [decodeEntry, decodePde, hleaf, frameField, getElem_bitAt, addrField_or_bitAt, addrField_shiftLeft a _ hfit]
  | pde2mb a lm f =>
    obtain rfl : pos = .pd := by simpa [positions] using hpos
    obtain ⟨hfit, hsel⟩ : fitsHaw p 21 a.toNat = true ∧ leafIs p .pd true (.pde2mb a lm f) = true := by
      simpa [wellFormed] using hwf
    obtain ⟨haddr, hlm, hf, hpresent⟩ := leafWord_fields a lm f (by decide) (by decide) hfit (Option.some.inj hw).symm
    simp only [decodeEntry, decodePde, leafIs_eq hsel hw, haddr, hlm, hf, hpresent, if_true]
  | pte64kb a lm f =>
    obtain rfl : pos = .pt64k := by simpa [positions] using hpos
    obtain ⟨haddr, hlm, hf, hpresent⟩ := leafWord_fields a lm f (by decide) (by decide) hwf (Option.some.inj hw).symm
    simp only [decodeEntry, haddr, hlm, hf, hpresent, if_true]
  | pte4kb a f =>
    obtain rfl : pos = .pt4k := by simpa [positions] using hpos
    cases hw
    have hflags := leafBits_or_encodeLeafBits (a.setWidth 64 <<< 12) f (by simp [leafBits])
    simp [decodeEntry, hflags, frameField, getElem_bitAt, addrField_or_bitAt, addrField_or_encodeLeafBits, addrField_shiftLeft a _ hwf]
  | notPresent =>
    cases hw
    have hlevel : (levelOf pos).isSome = true := by
      fin_cases hpos <;> rfl
    exact decodeEntry_of_not_present hlevel rfl
  | trttL3Pointer a | trttL2Pointer a =>
    obtain rfl := List.mem_singleton.1 hpos
    cases hw
    have haddr : (a.setWidth 64 <<< 12).extractLsb' 12 36 = a := by
      ext j hj
      have h64 : 12 + j < 64 := by omega
      simp [h64, hj]
    simp [decodeEntry, decodeTrL3, decodeTrL2, haddr]
  | trttL3Null | trttL3Invalid | trttL3NullAndInvalid | trttL2Null | trttL2Invalid | trttL2NullAndInvalid =>
    obtain rfl := List.mem_singleton.1 hpos
    cases hw
    rfl
  | trttL1 a =>
    obtain rfl := List.mem_singleton.1 hpos
    cases hw
    simp [decodeEntry]
  | _ => cases hw

/-! ## Bytes -/

/-- An entry's bytes are those of its word, which fits the size that the entry has at every position that reads it (20_memory R71, R78). -/
theorem encode_eq_leBytes (hpos : pos ∈ positions i) :
    ∃ w, encodeWord i = some w ∧ encode i = leBytes (entryBytes pos) w.toNat ∧ w.toNat < 256 ^ entryBytes pos := by
  cases i with
  | notPresent =>
    refine ⟨_, rfl, ?_⟩
    fin_cases hpos <;> exact ⟨rfl, by decide⟩
  | trttL1 a =>
    obtain rfl := List.mem_singleton.1 hpos
    exact ⟨_, rfl, rfl, by simp [entryBytes]; omega⟩
  | read | write | mmioWrite | mmioRead | ggttUpdate | miUpdateGtt | tableWrite | ctxLoad | faultResponse | ackInvalidTile | reset =>
    cases hpos
  | _ =>
    obtain rfl := List.mem_singleton.1 hpos
    exact ⟨_, rfl, rfl, by simp only [entryBytes]; omega⟩

end DecodeEncode

/-- Settles O3: the entry's bytes are taken off the front, they give its word, and the word decodes to the entry. -/
theorem decodeInvertsEncode : Obligations.DecodeInvertsEncode := by
  intro p i pos rest hwf hpos
  obtain ⟨w, hw, hbytes, hlt⟩ := encode_eq_leBytes hpos
  have hlen : (encode i).length = entryBytes pos := by rw [hbytes, length_leBytes]
  have hword : leNat (encode i) = w.toNat := by rw [hbytes, leNat_leBytes, Nat.mod_eq_of_lt hlt]
  have hfront : ¬ (encode i ++ rest).length < entryBytes pos := by simp [hlen]
  rw [decode, if_neg hfront, ← hlen, List.take_left, List.drop_left, hword, BitVec.ofNat_toNat, BitVec.setWidth_eq,
    decodeEntry_encodeWord hwf hpos hw]

end Sys2Proof.Machine

/-! # What an instruction answers

Every next state of `exec`, said once: a request and an entry are sequences of elementary changes of one request, and each of the host's
operations gives one state. The claims about what only some instructions change are case analyses of this relation. -/

namespace Sys2Proof.Machine

section Answers

/-- `Answers i s t`: in `s` the instruction `i` may answer `t`. -/
inductive Answers : Instr → State → State → Prop where
  | entry {i s t} (wk : Walk) (hi : positions i ≠ []) (hwalk : s.walk = some wk) (hc : Changes wk.req s t) : Answers i s t
  | read {e c gva n s t}
      (hc : Changes { id := s.nextReq, agent := e, ctx := c, gva := gva, n := n, value := none }
        { s with nextReq := s.nextReq + 1, walk := none } t) : Answers (.read e c gva n) s t
  | write {e c gva n v s t}
      (hc : Changes { id := s.nextReq, agent := e, ctx := c, gva := gva, n := n, value := some v }
        { s with nextReq := s.nextReq + 1, walk := none } t) : Answers (.write e c gva n v) s t
  | response {k ok s t} (h : Halted) (hk : assocGet s.halted k = some h)
      (hc : Changes h.req { s with halted := assocErase s.halted k, walk := none } t) : Answers (.faultResponse k ok) s t
  | bypass {r c v s} : Answers (.mmioWrite r c v) s { s with trbypass := v.getLsbD 0, result := .done }
  | register {r v s} (k : Nat) (regs : TrRegs) (hr : ∃ r', regsWriteDword (s.ctx (.proc k)).tr r' v = some regs) :
      Answers (.mmioWrite r (.proc k) v) s { s.setRegs k regs with result := .done }
  | mmioRead {r c s} (x : Word32) (d : Nat) : Answers (.mmioRead r c) s { s with result := .register x, draws := d }
  | ggttUpdate {k e s} : Answers (.ggttUpdate k e) s { writeGgttEntry .host s (k, e) with result := .done }
  | miUpdateGtt {l s} : Answers (.miUpdateGtt l) s { l.foldl (writeGgttEntry .commandStreamer) s with result := .done }
  | storeNothing {sp pa v s} : Answers (.tableWrite sp pa 0 v) s { s with result := .done }
  | store {sp pa n v s} (hg : inGgtt s.cfg sp pa.toNat n = false) :
      Answers (.tableWrite sp pa n v) s { s.physWrite .host sp pa (leBytes n v) with result := .done }
  | load {c m s} :
      Answers (.ctxLoad c m) s
        { s.setCtx c { (s.ctx c).load m with tr := regsAfterLoad m (s.ctx c).tr, caches := s.flushed } with result := .done }
  | loadValues {k m s} : Answers (.ctxLoad (.proc k) m) s { s.setCtx (.proc k) ((s.ctx (.proc k)).load m) with result := .done }
  | loadRegisters {k m s} (r : TrRegs) : Answers (.ctxLoad (.proc k) m) s
      { (s.setCtx (.proc k) ((s.ctx (.proc k)).load m)).setRegs k (regsMasked r) with result := .done }
  | loadNothing {m s} : Answers (.ctxLoad .global m) s { s with result := .done }
  | ack {s} : Answers .ackInvalidTile s { s with irqInvalidTile := false, result := .done }
  | reset {s t} (h : execReset s = .next t) : Answers .reset s t

variable {s t : State} {i : Instr}

theorem writeCtxReg_answers {r r' : RegName} {c : CtxId} {v : Word32} (h : writeCtxReg r' c v s = .next t) :
    Answers (.mmioWrite r c v) s t := by
  unfold writeCtxReg at h
  split at h
  · cases h
  · next k =>
    split at h
    · cases h
    · next regs hregs => cases h; exact .register k regs ⟨r', hregs⟩

theorem execMmioWrite_answers {r : RegName} {c : CtxId} {v : Word32} (h : execMmioWrite r c v s = .next t) :
    Answers (.mmioWrite r c v) s t := by
  unfold execMmioWrite at h
  cases hr : resolve s.cfg r <;> simp only [hr, reduceCtorEq] at h
  case trbypass => cases h; exact .bypass
  all_goals exact writeCtxReg_answers h

theorem readCtxReg_answers {r r' : RegName} {c : CtxId} (h : readCtxReg r' c s = .next t) : Answers (.mmioRead r c) s t := by
  unfold readCtxReg at h
  split at h
  · cases h
  · split at h
    · cases h
    · next x _ => cases h; exact .mmioRead x s.draws

theorem execMmioRead_answers {r : RegName} {c : CtxId} (h : execMmioRead r c s = .next t) : Answers (.mmioRead r c) s t := by
  unfold execMmioRead at h
  cases hr : resolve s.cfg r <;> simp only [hr, reduceCtorEq] at h
  case trbypass | nullcnt => cases h; exact .mmioRead _ _
  all_goals exact readCtxReg_answers h

theorem execTableWrite_answers {sp : Space} {pa : Word64} {n v : Nat} (h : execTableWrite sp pa n v s = .next t) :
    Answers (.tableWrite sp pa n v) s t := by
  unfold execTableWrite at h
  split at h
  · next hn => subst hn; cases h; exact .storeNothing
  · split at h
    · cases h
    · split at h
      · cases h
      · split at h
        · cases h
        · next hg => cases h; exact .store (by simpa using hg)

theorem execCtxLoad_answers {c : CtxId} {m : CtxImage} (h : execCtxLoad c m s = .next t) : Answers (.ctxLoad c m) s t := by
  unfold execCtxLoad at h; dsimp only at h
  split at h
  · cases h; exact .load
  · split at h <;> cases h
    · exact .loadRegisters _
    · exact .loadValues
    · exact .loadNothing

/-- Whatever instruction answers a next state, it is one of those above. -/
theorem exec_answers (h : exec i s = .next t) : Answers i s t := by
  cases i with
  | read e c gva n => exact .read (runRequest_changes (by simp) t h)
  | write e c gva n v => exact .write (runRequest_changes (by simp) t h)
  | faultResponse k ok =>
    obtain ⟨x, hx, hc⟩ := execFaultResponse_changes h
    exact .response x hx hc
  | mmioWrite r c v => exact execMmioWrite_answers h
  | mmioRead r c => exact execMmioRead_answers h
  | ggttUpdate k e =>
    simp only [exec, execGgttUpdate] at h
    split at h <;> cases h
    exact .ggttUpdate
  | miUpdateGtt l =>
    simp only [exec, execMiUpdateGtt] at h
    split at h <;> cases h
    exact .miUpdateGtt
  | tableWrite sp pa n v => exact execTableWrite_answers h
  | ctxLoad c m => exact execCtxLoad_answers h
  | ackInvalidTile => cases h; exact .ack
  | reset => exact .reset h
  | _ =>
    rw [exec_eq_execEntry (by simp [positions])] at h
    obtain ⟨wk, hwk, hc⟩ := execEntry_next_changes h
    exact .entry wk (by simp [positions]) hwk hc

end Answers

end Sys2Proof.Machine

/-! # The data stays in form

The invariant taken apart into its clauses; each kind of update keeps them, so each elementary change of a request and each operation of the
host does (10_state R42, 43_ppgtt R240). -/

namespace Sys2Proof.Machine

section InForm

variable {s t : State} {q : Request} {r : TrRegs}

/-! ## The invariant as its clauses -/

structure InForm (s : State) : Prop where
  mem : s.mem.wf = true
  ctxs : assocWf s.ctxs = true
  halted : assocWf s.halted = true
  global : s.globalCaches.inv s.clock = true
  each : ∀ kc ∈ s.ctxs, kc.2.inv s.clock = true
  breach : s.breach ≤ s.clock
  flushedAt : s.flushedAt ≤ s.clock
  hist : ∀ w ∈ s.hist, w.time ≤ s.clock
  records : ∀ qh ∈ s.halted, qh.1 < s.nextReq ∧ qh.2.req.id = qh.1
  walk : ∀ wk, s.walk = some wk → wk.req.id < s.nextReq

theorem inv_iff : s.inv = true ↔ InForm s := by
  have hwalk : (match s.walk with | some wk => decide (wk.req.id < s.nextReq) | none => true) = true ↔
      ∀ wk, s.walk = some wk → wk.req.id < s.nextReq := by
    cases s.walk <;> simp
  simp only [State.inv, Bool.and_eq_true, List.all_eq_true, decide_eq_true_eq, beq_iff_eq]
  constructor
  · rintro ⟨⟨⟨⟨⟨⟨⟨⟨⟨h1, h2⟩, h3⟩, h4⟩, h5⟩, h6⟩, h7⟩, h8⟩, h9⟩, h10⟩
    exact ⟨h1, h2, h3, h4, h5, h6, h7, h8, h9, hwalk.1 h10⟩
  · rintro ⟨h1, h2, h3, h4, h5, h6, h7, h8, h9, h10⟩
    exact ⟨⟨⟨⟨⟨⟨⟨⟨⟨h1, h2⟩, h3⟩, h4⟩, h5⟩, h6⟩, h7⟩, h8⟩, h9⟩, hwalk.2 h10⟩

/-! ## Registers and caches in form -/

theorem reservedZero_reset : reservedZero TrRegs.reset = true := by decide

theorem reservedZero_regsMasked (r : TrRegs) : reservedZero (regsMasked r) = true := by
  simp [reservedZero, regsMasked, BitVec.and_assoc]

/-- A register write stores no reserved bit (40_request_pipeline R160). -/
theorem reservedZero_regsWriteDword {r' : TrRegs} {n : RegName} {v : Word32} (hr : reservedZero r = true)
    (h : regsWriteDword r n v = some r') : reservedZero r' = true := by
  cases n <;> simp only [regsWriteDword, reduceCtorEq, Option.some.injEq] at h
  all_goals
    subst h
    simp only [reservedZero, Bool.and_eq_true, beq_iff_eq] at hr ⊢
    simp only [BitVec.and_assoc, BitVec.and_self, hr, and_self]

theorem reservedZero_regsAfterLoad (m : CtxImage) (hr : reservedZero r = true) : reservedZero (regsAfterLoad m r) = true := by
  unfold regsAfterLoad
  split
  · exact reservedZero_regsMasked _
  · exact hr

theorem caches_inv_iff {h : Caches} {n : Nat} : h.inv n = true ↔
    (∀ c, h.pml4c = some c → c.entries.length = 512) ∧ (∀ r ∈ h.trOld, reservedZero r = true) ∧ h.since ≤ n := by
  have hpml4 : (match h.pml4c with | some c => c.entries.length == 512 | none => true) = true ↔
      ∀ c, h.pml4c = some c → c.entries.length = 512 := by
    cases h.pml4c <;> simp
  simp only [Caches.inv, Bool.and_eq_true, List.all_eq_true, decide_eq_true_eq, and_assoc]
  exact and_congr hpml4 Iff.rfl

theorem ctx_inv_iff {x : Ctx} {n : Nat} : x.inv n = true ↔ reservedZero x.tr = true ∧ x.caches.inv n = true := by
  simp only [Ctx.inv, Bool.and_eq_true]

theorem Caches.inv_mono {h : Caches} {m n : Nat} (hmn : m ≤ n) (hi : h.inv m = true) : h.inv n = true := by
  rw [caches_inv_iff] at *
  obtain ⟨hpml4, hold, hsince⟩ := hi
  exact ⟨hpml4, hold, hsince.trans hmn⟩

theorem Ctx.inv_mono {x : Ctx} {m n : Nat} (hmn : m ≤ n) (hi : x.inv m = true) : x.inv n = true := by
  rw [ctx_inv_iff] at *
  exact ⟨hi.1, Caches.inv_mono hmn hi.2⟩

theorem initial_inv (n : Nat) : Ctx.initial.inv n = true := by
  refine ctx_inv_iff.2 ⟨reservedZero_reset, caches_inv_iff.2 ⟨?_, ?_, Nat.zero_le n⟩⟩ <;> simp [Ctx.initial, Caches.empty]

theorem empty_inv (n : Nat) : Caches.empty.inv n = true := (ctx_inv_iff.1 (initial_inv n)).2

theorem flushed_inv (s : State) : s.flushed.inv s.clock = true := caches_inv_iff.2 ⟨by rintro _ ⟨⟩, by rintro _ ⟨⟩, Nat.le_refl _⟩

theorem mem_of_assocGet {α : Type} {l : List (Nat × α)} {k : Nat} {x : α} (h : assocGet l k = some x) : (k, x) ∈ l := by
  induction l with
  | nil => cases h
  | cons p l ih =>
    obtain ⟨j, v⟩ := p
    simp only [assocGet] at h
    split at h
    · next hj => subst hj; cases h; exact List.mem_cons_self
    · exact List.mem_cons_of_mem _ (ih h)

/-! ## Updates that keep the form -/

namespace InForm

/-- Every context is in form, also one that nothing has loaded. -/
theorem ctx (h : InForm s) (c : CtxId) : (s.ctx c).inv s.clock = true := by
  cases c with
  | global => exact ctx_inv_iff.2 ⟨reservedZero_reset, h.global⟩
  | proc k =>
    cases hk : assocGet s.ctxs k with
    | none => simp only [State.ctx, hk, Option.getD_none, initial_inv]
    | some x => simpa only [State.ctx, hk, Option.getD_some] using h.each _ (mem_of_assocGet hk)

theorem caches (h : InForm s) (c : CtxId) : (s.ctx c).caches.inv s.clock = true := (ctx_inv_iff.1 (h.ctx c)).2

theorem tr (h : InForm s) (c : CtxId) : reservedZero (s.ctx c).tr = true := (ctx_inv_iff.1 (h.ctx c)).1

/-- The fields that the invariant does not read. -/
theorem setProgress (h : InForm s) (w : Option Walk) (hw : ∀ wk, w = some wk → wk.req.id < s.nextReq) (r : Result) (d : Nat)
    (v : Word32) (irq needsReset bypass : Bool) (l : List Input) :
    InForm { s with walk := w, result := r, draws := d, nullcnt := v, irqInvalidTile := irq, needsReset := needsReset,
                    trbypass := bypass, schedule := l } :=
  ⟨h.mem, h.ctxs, h.halted, h.global, h.each, h.breach, h.flushedAt, h.hist, h.records, hw⟩

theorem setResult (h : InForm s) (r : Result) : InForm { s with result := r } := h.setProgress s.walk h.walk ..

theorem setMem (h : InForm s) {m : Memory} (hm : m.wf = true) : InForm { s with mem := m } :=
  ⟨hm, h.ctxs, h.halted, h.global, h.each, h.breach, h.flushedAt, h.hist, h.records, h.walk⟩

theorem setClock (h : InForm s) {n : Nat} (hn : s.clock ≤ n) {b : Nat} (hb : b ≤ n) : InForm { s with clock := n, breach := b } :=
  ⟨h.mem, h.ctxs, h.halted, Caches.inv_mono hn h.global, fun kc hkc => Ctx.inv_mono hn (h.each kc hkc), hb,
    h.flushedAt.trans hn, fun w hw => (h.hist w hw).trans hn, h.records, h.walk⟩

theorem setCtx (h : InForm s) (c : CtxId) {x : Ctx} (hx : x.inv s.clock = true) : InForm (s.setCtx c x) := by
  cases c with
  | global => exact ⟨h.mem, h.ctxs, h.halted, (ctx_inv_iff.1 hx).2, h.each, h.breach, h.flushedAt, h.hist, h.records, h.walk⟩
  | proc k =>
    refine ⟨h.mem, assocWf_put k x h.ctxs, h.halted, h.global, ?_, h.breach, h.flushedAt, h.hist, h.records, h.walk⟩
    intro kc hkc
    obtain rfl | hkc := mem_assocPut hkc
    · exact hx
    · exact h.each kc hkc

theorem setCaches (h : InForm s) (c : CtxId) {x : Caches} (hx : x.inv s.clock = true) : InForm (s.setCaches c x) := by
  cases c with
  | global => exact h.setCtx .global (x := { Ctx.initial with caches := x }) (ctx_inv_iff.2 ⟨reservedZero_reset, hx⟩)
  | proc k => exact h.setCtx (.proc k) (ctx_inv_iff.2 ⟨h.tr (.proc k), hx⟩)

theorem fillTlb (h : InForm s) (c : CtxId) (e : TlbEntry) : InForm (s.fillTlb c e) := by
  unfold State.fillTlb; dsimp only
  split
  · exact h
  · exact h.setCaches c (caches_inv_iff.2 (caches_inv_iff.1 (h.caches c)))

theorem fillTrTlb (h : InForm s) (c : CtxId) (e : TrTlbEntry) : InForm (s.fillTrTlb c e) := by
  unfold State.fillTrTlb; dsimp only
  split
  · exact h
  · exact h.setCaches c (caches_inv_iff.2 (caches_inv_iff.1 (h.caches c)))

/-- The PML4 cache is filled with 512 entries (43_ppgtt R240). -/
theorem fillPml4 (h : InForm s) (c : CtxId) (page : Word64) : InForm (s.fillPml4 c page) := by
  unfold State.fillPml4; dsimp only
  split
  · exact h
  · obtain ⟨-, hold, hsince⟩ := caches_inv_iff.1 (h.caches c)
    have hfill := h.setCaches c (x := { (s.ctx c).caches with pml4c := some { page := page, entries := s.pml4Entries c page } })
      (caches_inv_iff.2 ⟨by rintro _ ⟨⟩; simp [State.pml4Entries], hold, hsince⟩)
    exact hfill.setProgress _ hfill.walk ..

theorem halt (h : InForm s) (x : Halted) (hx : x.req.id < s.nextReq) :
    InForm { s with halted := assocPut s.halted x.req.id x } := by
  refine ⟨h.mem, h.ctxs, assocWf_put _ _ h.halted, h.global, h.each, h.breach, h.flushedAt, h.hist, ?_, h.walk⟩
  intro qh hqh
  obtain rfl | hqh := mem_assocPut hqh
  · exact ⟨hx, rfl⟩
  · exact h.records qh hqh

theorem physWrite (h : InForm s) (who : Agent) (sp : Space) (pa : Word64) (b : List Byte) : InForm (s.physWrite who sp pa b) := by
  have hclock := (h.setMem (wf_putBytes sp pa.toNat b h.mem)).setClock (n := s.clock + 1) (Nat.le_succ _)
    (b := if s.inUse sp pa.toNat b.length then s.clock + 1 else s.breach) (by split; exacts [Nat.le_refl _, h.breach.trans (Nat.le_succ _)])
  refine ⟨hclock.mem, hclock.ctxs, hclock.halted, hclock.global, hclock.each, hclock.breach, hclock.flushedAt, ?_, hclock.records,
    hclock.walk⟩
  intro w hw
  obtain rfl | hw := List.mem_cons.1 hw
  · exact Nat.le_refl _
  · exact hclock.hist w hw

theorem memoryFreed (h : InForm s) : InForm s.memoryFreed := by
  have hmem := h.setMem (wf_spurious s.cfg (Config.spuriousWrites s.draws) h.mem)
  exact hmem.setProgress _ hmem.walk ..

theorem setRegs (h : InForm s) (k : Nat) (hr : reservedZero r = true) : InForm (s.setRegs k r) := by
  obtain ⟨hpml4, hold, hsince⟩ := caches_inv_iff.1 (h.caches (.proc k))
  unfold State.setRegs; dsimp only
  split
  · exact h.setCtx (.proc k) (ctx_inv_iff.2 ⟨hr, h.caches (.proc k)⟩)
  · have holds : ∀ r' ∈ (s.ctx (.proc k)).tr :: (s.ctx (.proc k)).caches.trOld, reservedZero r' = true := by
      intro r' hr'
      obtain rfl | hr' := List.mem_cons.1 hr'
      · exact h.tr (.proc k)
      · exact hold r' hr'
    exact (h.setCtx (.proc k) (x := { s.ctx (.proc k) with
        tr := r
        caches := { (s.ctx (.proc k)).caches with trOld := (s.ctx (.proc k)).tr :: (s.ctx (.proc k)).caches.trOld } })
      (ctx_inv_iff.2 ⟨hr, caches_inv_iff.2 ⟨hpml4, holds, hsince⟩⟩)).setClock (Nat.le_succ _) (Nat.le_refl _)

theorem writeGgttEntries (h : InForm s) (who : Agent) (l : List (BitVec 20 × Word64)) : InForm (l.foldl (writeGgttEntry who) s) := by
  induction l generalizing s with
  | nil => exact h
  | cons u l ih => exact ih (h.physWrite ..)

theorem platformEvent (h : InForm s) (name : Nat) (c : Option CtxId) : InForm (s.platformEvent name c) := by
  unfold State.platformEvent
  split
  · split
    · exact h.setCaches _ (flushed_inv s)
    · refine ⟨h.mem, (assocWf_map (fun kc => (kc.1, { kc.2 with caches := s.flushed })) (fun _ => rfl) s.ctxs).trans h.ctxs, h.halted, flushed_inv s, ?_, h.breach, Nat.le_refl _, h.hist,
        h.records, h.walk⟩
      intro kc hkc
      obtain ⟨kc', hkc', rfl⟩ := List.mem_map.1 hkc
      exact ctx_inv_iff.2 ⟨(ctx_inv_iff.1 (h.each kc' hkc')).1, flushed_inv s⟩
  · exact h

/-! ## Requests -/

theorem change (h : InForm s) (hc : Change q s t) (hq : q.id < s.nextReq) : InForm t ∧ q.id < t.nextReq := by
  cases hc with
  | draw n => exact ⟨h.setProgress _ h.walk .., hq⟩
  | walk w hw => exact ⟨h.setProgress w (fun wk hwk => by rw [hw wk hwk]; exact hq) .., hq⟩
  | result r => exact ⟨h.setResult r, hq⟩
  | tlb e => exact ⟨h.fillTlb _ e, by simpa using hq⟩
  | trTlb e => exact ⟨h.fillTrTlb _ e, by simpa using hq⟩
  | pml4 page => exact ⟨h.fillPml4 _ page, by simpa using hq⟩
  | irq => exact ⟨h.setProgress _ h.walk .., hq⟩
  | halt x hx => subst hx; exact ⟨h.halt x hq, hq⟩
  | nullcnt v => exact ⟨h.setProgress _ h.walk .., hq⟩
  | needsReset => exact ⟨h.setProgress _ h.walk .., hq⟩
  | store sp pa v hv hg => exact ⟨h.physWrite .., hq⟩
  | spurious => exact ⟨h.memoryFreed.setProgress _ h.walk .., hq⟩

theorem changes (h : InForm s) (hc : Changes q s t) (hq : q.id < s.nextReq) : InForm t :=
  (hc.rec_on (P := fun _ t => InForm t ∧ q.id < t.nextReq) ⟨h, hq⟩ fun _ _ hab ha => ha.1.change hab ha.2).1

/-- A new request is numbered below the next one. -/
theorem newRequest (h : InForm s) (hc : Changes q { s with nextReq := s.nextReq + 1, walk := none } t) (hq : q.id = s.nextReq) :
    InForm t := by
  refine InForm.changes ?_ hc (by rw [hq]; exact Nat.lt_succ_self _)
  exact ⟨h.mem, h.ctxs, h.halted, h.global, h.each, h.breach, h.flushedAt, h.hist,
    fun qh hqh => ⟨(h.records qh hqh).1.trans (Nat.lt_succ_self _), (h.records qh hqh).2⟩, by rintro _ ⟨⟩⟩

/-- A halted request that is performed again is not in the record meanwhile. -/
theorem response (h : InForm s) {k : Nat} {x : Halted} (hk : assocGet s.halted k = some x)
    (hc : Changes x.req { s with halted := assocErase s.halted k, walk := none } t) : InForm t := by
  obtain ⟨hlt, hid⟩ := h.records _ (mem_of_assocGet hk)
  refine InForm.changes ?_ hc (by rw [hid]; exact hlt)
  exact ⟨h.mem, h.ctxs, assocWf_erase k h.halted, h.global, h.each, h.breach, h.flushedAt, h.hist,
    fun qh hqh => h.records qh (mem_assocErase hqh), by rintro _ ⟨⟩⟩

/-! ## Every instruction -/

theorem reset (h : InForm s) (ht : execReset s = .next t) : InForm t := by
  cases ht
  refine ⟨rfl, (assocWf_map (fun kc => (kc.1, kc.2.afterReset)) (fun _ => rfl) s.ctxs).trans h.ctxs, rfl, empty_inv 0, ?_, Nat.le_refl _, Nat.le_refl _, by rintro _ ⟨⟩,
    by rintro _ ⟨⟩, by rintro _ ⟨⟩⟩
  intro kc hkc
  obtain ⟨kc', -, rfl⟩ := List.mem_map.1 hkc
  exact initial_inv 0

theorem exec {i : Instr} (h : InForm s) (ht : exec i s = .next t) : InForm t := by
  have hload (c : CtxId) (m : CtxImage) : ((s.ctx c).load m).inv s.clock = true := h.ctx c
  cases exec_answers ht with
  | entry wk hi hwalk hc => exact h.changes hc (h.walk wk hwalk)
  | read hc | write hc => exact h.newRequest hc rfl
  | response x hk hc => exact h.response hk hc
  | bypass => exact h.setProgress _ h.walk ..
  | register k regs hr =>
    obtain ⟨_, hr⟩ := hr
    exact (h.setRegs k (reservedZero_regsWriteDword (h.tr (.proc k)) hr)).setResult _
  | mmioRead x d => exact h.setProgress _ h.walk ..
  | ggttUpdate => exact (h.physWrite ..).setResult _
  | miUpdateGtt => exact (h.writeGgttEntries ..).setResult _
  | storeNothing | loadNothing => exact h.setResult _
  | store => exact (h.physWrite ..).setResult _
  | load => exact (h.setCtx _ (ctx_inv_iff.2 ⟨reservedZero_regsAfterLoad _ (h.tr _), flushed_inv s⟩)).setResult _
  | loadValues => exact (h.setCtx (.proc _) (hload _ _)).setResult _
  | loadRegisters r => exact ((h.setCtx (.proc _) (hload _ _)).setRegs _ (reservedZero_regsMasked r)).setResult _
  | ack => exact h.setProgress _ h.walk ..
  | reset ht => exact h.reset ht

theorem step (h : InForm s) (ht : step s = .next t) : InForm t := by
  unfold Machine.step at ht
  split at ht
  · next wk hwk => exact InForm.exec (h.changes (fetch_changes .refl) (h.walk wk hwk)) ht
  · split at ht
    · cases ht; exact h
    · exact InForm.exec (h.setProgress s.walk h.walk ..) ht
    · cases ht; exact (h.setProgress s.walk h.walk ..).platformEvent ..

end InForm

end InForm

/-- Settles O7: a step is a fetch and an instruction, an operation or an event, and each kind of update keeps every clause. -/
theorem stepKeepsTheDataInForm : Obligations.StepKeepsTheDataInForm :=
  fun _ _ hs ht => inv_iff.2 ((inv_iff.1 hs).step ht)

end Sys2Proof.Machine

/-! # What requests and operations leave alone

Each frame is a claim about two states that every elementary change keeps and that the host's operations keep or are excepted from. -/

namespace Sys2Proof.Machine

section Frames

variable {s t u : State} {q : Request} {c : CtxId} {i : Instr}

/-! ## The configuration -/

theorem Change.cfg (h : Change q s t) : t.cfg = s.cfg := by cases h <;> simp

theorem Changes.cfg (h : Changes q s t) : t.cfg = s.cfg :=
  h.rec_on (P := fun s t => t.cfg = s.cfg) rfl fun _ _ hab ha => hab.cfg.trans ha

/-- Updates of the GGTT store bytes and count the stores, and leave every other field alone. -/
theorem foldl_writeGgttEntry_stores (w : Agent) (l : List (BitVec 20 × Word64)) (s : State) :
    ∃ m hist clock breach, l.foldl (writeGgttEntry w) s = { s with mem := m, hist := hist, clock := clock, breach := breach } := by
  induction l generalizing s with
  | nil => exact ⟨_, _, _, _, rfl⟩
  | cons u l ih => exact ih (writeGgttEntry w s u)

theorem exec_cfg (h : exec i s = .next t) : t.cfg = s.cfg := by
  cases exec_answers h with
  | entry _ _ _ hc | read hc | write hc | response _ _ hc => exact hc.cfg
  | reset ht => cases ht; rfl
  | @miUpdateGtt l =>
    obtain ⟨_, _, _, _, hstores⟩ := foldl_writeGgttEntry_stores .commandStreamer l s
    rw [hstores]
  | _ => simp [writeGgttEntry]

/-! ## Registers and per-context values -/

theorem sameRegisters_trans (h : sameRegisters s t) (h' : sameRegisters t u) : sameRegisters s u := by
  obtain ⟨hcfg, hbypass, hpgtbl, hctx⟩ := h
  obtain ⟨hcfg', hbypass', hpgtbl', hctx'⟩ := h'
  refine ⟨hcfg'.trans hcfg, hbypass'.trans hbypass, hpgtbl'.trans hpgtbl, fun c => ?_⟩
  obtain ⟨h1, h2, h3, h4, h5, h6⟩ := hctx c
  obtain ⟨h1', h2', h3', h4', h5', h6'⟩ := hctx' c
  exact ⟨h1'.trans h1, h2'.trans h2, h3'.trans h3, h4'.trans h4, h5'.trans h5, h6'.trans h6⟩

/-- Where no context's record changes, registers stay with the three global values. -/
theorem sameRegisters_of_ctx (hcfg : t.cfg = s.cfg) (hbypass : t.trbypass = s.trbypass) (hpgtbl : t.pgtblCtl2 = s.pgtblCtl2)
    (hctx : ∀ c, t.ctx c = s.ctx c) : sameRegisters s t :=
  ⟨hcfg, hbypass, hpgtbl, fun c => by rw [hctx c]; exact ⟨rfl, rfl, rfl, rfl, rfl, rfl⟩⟩

/-- The TLB is hidden state of its context alone. -/
theorem TouchesOnlyCaches.fillTlb (s : State) (c : CtxId) (e : TlbEntry) : TouchesOnlyCaches c s (s.fillTlb c e) where
  cfg := fillTlb_cfg s c e
  mem := fillTlb_mem s c e
  epoch := fillTlb_epoch s c e
  trbypass := fillTlb_trbypass s c e
  pgtblCtl2 := fillTlb_pgtblCtl2 s c e
  pending := ⟨fillTlb_halted s c e, fillTlb_needsReset s c e, fillTlb_irqInvalidTile s c e⟩
  context := by
    obtain ⟨_, hctx, -⟩ := ctx_fillTlb_same s c e
    exact ⟨_, hctx⟩
  others := fun _ hc => ctx_fillTlb_other s c e hc

theorem Change.sameRegisters (h : Change q s t) : sameRegisters s t := by
  cases h with
  | tlb e => exact (TouchesOnlyCaches.fillTlb s q.ctx e).sameRegisters
  | trTlb e => exact (TouchesOnlyCaches.fillTrTlb s q.ctx e).sameRegisters
  | pml4 page => exact (TouchesOnlyCaches.fillPml4 s q.ctx page).sameRegisters
  | draw | walk | result | irq | halt | nullcnt | needsReset | store | spurious =>
    exact sameRegisters_of_ctx rfl rfl rfl fun c => ctx_congr rfl rfl c

theorem Changes.sameRegisters (h : Changes q s t) : sameRegisters s t :=
  h.rec_on (P := Machine.sameRegisters) (sameRegisters_of_ctx rfl rfl rfl fun _ => rfl) fun _ _ hab ha =>
    sameRegisters_trans ha hab.sameRegisters

/-- Only MMIO_WRITE, CTX_LOAD and RESET are not among the instructions that leave registers alone (10_state R45). -/
theorem exec_sameRegisters (hwrite : ∀ r c v, i ≠ .mmioWrite r c v) (hload : ∀ c m, i ≠ .ctxLoad c m) (hreset : i ≠ .reset)
    (h : exec i s = .next t) : sameRegisters s t := by
  have hstart (n : Nat) (hl : List (Nat × Halted)) : Machine.sameRegisters s { s with nextReq := n, halted := hl, walk := none } :=
    sameRegisters_of_ctx rfl rfl rfl fun c => ctx_congr rfl rfl c
  cases exec_answers h with
  | entry _ _ _ hc => exact hc.sameRegisters
  | read hc | write hc | response _ _ hc => exact sameRegisters_trans (hstart _ _) hc.sameRegisters
  | bypass | register => exact absurd rfl (hwrite _ _ _)
  | load | loadValues | loadRegisters | loadNothing => exact absurd rfl (hload _ _)
  | reset => exact absurd rfl hreset
  | @miUpdateGtt l =>
    obtain ⟨_, _, _, _, hstores⟩ := foldl_writeGgttEntry_stores .commandStreamer l s
    rw [hstores]
    exact sameRegisters_of_ctx rfl rfl rfl fun c => ctx_congr rfl rfl c
  | mmioRead | ggttUpdate | storeNothing | store | ack => exact sameRegisters_of_ctx rfl rfl rfl fun c => ctx_congr rfl rfl c

/-! ## The interrupt -/

theorem Change.irqInvalidTile (h : Change q s t) (hs : s.irqInvalidTile = true) : t.irqInvalidTile = true := by
  cases h <;> simp [hs]

theorem Changes.irqInvalidTile (h : Changes q s t) (hs : s.irqInvalidTile = true) : t.irqInvalidTile = true :=
  h.rec_on (P := fun _ t => t.irqInvalidTile = true) hs fun _ _ hab ha => hab.irqInvalidTile ha

theorem exec_irqInvalidTile (hack : i ≠ .ackInvalidTile) (hreset : i ≠ .reset) (hs : s.irqInvalidTile = true)
    (h : exec i s = .next t) : t.irqInvalidTile = true := by
  cases exec_answers h with
  | entry _ _ _ hc | read hc | write hc | response _ _ hc => exact hc.irqInvalidTile hs
  | ack => exact absurd rfl hack
  | reset => exact absurd rfl hreset
  | @miUpdateGtt l =>
    obtain ⟨_, _, _, _, hstores⟩ := foldl_writeGgttEntry_stores .commandStreamer l s
    rw [hstores]
    exact hs
  | _ => simpa [writeGgttEntry] using hs

/-! ## Other contexts -/

theorem Change.sameOtherContexts (h : Change q s t) : sameOtherContexts s t q.ctx := by
  cases h with
  | tlb e => exact (TouchesOnlyCaches.fillTlb s q.ctx e).others
  | trTlb e => exact (TouchesOnlyCaches.fillTrTlb s q.ctx e).others
  | pml4 page => exact (TouchesOnlyCaches.fillPml4 s q.ctx page).others
  | draw | walk | result | irq | halt | nullcnt | needsReset | store | spurious => exact fun c _ => ctx_congr rfl rfl c

theorem Changes.sameOtherContexts (h : Changes q s t) : sameOtherContexts s t q.ctx :=
  h.rec_on (P := fun s t => Machine.sameOtherContexts s t q.ctx) (fun _ _ => rfl) fun _ _ hab ha c hc =>
    (hab.sameOtherContexts c hc).trans (ha c hc)

end Frames

/-- Settles O8: no elementary change of a request and no operation touches it. -/
theorem configurationNeverChanges : Obligations.ConfigurationNeverChanges := fun _ _ _ h => exec_cfg h

/-- Settles O10: requests and entries change hidden state only, and the other operations memory, the interrupt and the result. -/
theorem registersChangeOnlyByHostOperations : Obligations.RegistersChangeOnlyByHostOperations :=
  fun _ _ _ hwrite hload hreset h => exec_sameRegisters hwrite hload hreset h

/-- Settles O12: an elementary change of a request can set the interrupt and not clear it. -/
theorem interruptStaysPendingUntilAcknowledged : Obligations.InterruptStaysPendingUntilAcknowledged :=
  fun _ _ _ hack hreset hs h => exec_irqInvalidTile hack hreset hs h

/-- Settles O16: a request fills the caches of its own context only. -/
theorem readLeavesOtherContextsAlone : Obligations.ReadLeavesOtherContextsAlone := by
  intro e c gva n s t h c' hc'
  cases exec_answers h with
  | entry _ hi => exact absurd rfl hi
  | read hc => exact (hc.sameOtherContexts c' hc').trans (ctx_congr rfl rfl c')

end Sys2Proof.Machine

/-! # Memory and cached translations

A request stores outside the GGTT, and a READ not at all, until a non-recoverable fault leaves memory unconstrained (42_ggtt R209, 20_memory
R81); what a context has cached stays cached until an event discards it (R99). -/

namespace Sys2Proof.Machine

section Memory

variable {s t u : State} {q : Request} {c : CtxId} {i : Instr}

/-! ## Memory -/

theorem byteAt_congr (hm : t.mem = s.mem) (he : t.epoch = s.epoch) (sp : Space) (a : Nat) : t.byteAt sp a = s.byteAt sp a := by
  rw [State.byteAt, State.byteAt, hm, he]

/-- A store outside the GGTT's 8 MB changes none of their bytes. -/
theorem byteAt_physWrite_of_not_inGgtt {p : Params} {who : Agent} {sp : Space} {pa : Word64} {l : List Byte}
    (h : inGgtt p sp pa.toNat l.length = false) {b : Nat} (hlo : p.ggttBase.toNat ≤ b) (hhi : b < p.ggttBase.toNat + 2 ^ 23) :
    (s.physWrite who sp pa l).byteAt .system b = s.byteAt .system b := by
  refine byteAt_putBytes_outside _ _ _ _ _ _ _ fun ⟨hsp, hle, hlt⟩ => ?_
  have hin : inGgtt p sp pa.toNat l.length = true := by
    simp only [inGgtt, overlaps, ← hsp, beq_self_eq_true, Bool.true_and, Bool.and_eq_true, decide_eq_true_eq]
    omega
  rw [hin] at h
  cases h

/-- A byte of System memory that an elementary change which asks for no reset leaves alone: one of the GGTT, or any of a READ. -/
def Spared (q : Request) (p : Params) (sp : Space) (b : Nat) : Prop :=
  q.value = none ∨ sp = .system ∧ p.ggttBase.toNat ≤ b ∧ b < p.ggttBase.toNat + 2 ^ 23

theorem Change.byteAt_of_spared (h : Change q s t) (hr : t.needsReset = false) {sp : Space} {b : Nat} (hb : Spared q s.cfg sp b) :
    t.byteAt sp b = s.byteAt sp b := by
  cases h with
  | store sp' pa v hv hg =>
    obtain hnone | ⟨rfl, hlo, hhi⟩ := hb
    · rw [hnone] at hv; cases hv
    · exact byteAt_physWrite_of_not_inGgtt (by simpa using hg) hlo hhi
  | spurious => cases hr
  | tlb | trTlb | pml4 => exact byteAt_congr (by simp) (by simp) _ _
  | draw | walk | result | irq | halt | nullcnt | needsReset => rfl

theorem Changes.byteAt_of_spared (h : Changes q s t) (hr : t.needsReset = false) {sp : Space} {b : Nat} (hb : Spared q s.cfg sp b) :
    t.byteAt sp b = s.byteAt sp b := by
  refine h.rec_on (P := fun s t => t.cfg = s.cfg ∧ (t.needsReset = false → Spared q s.cfg sp b → t.byteAt sp b = s.byteAt sp b))
    ⟨rfl, fun _ _ => rfl⟩ ?_ |>.2 hr hb
  rintro a t hat ⟨hcfg, ha⟩
  refine ⟨hat.cfg.trans hcfg, fun ht hb => ?_⟩
  have hra : a.needsReset = false := by
    by_contra hne
    have := Changes.needsReset (.single hat) (by simpa using hne)
    rw [ht] at this
    cases this
  exact (hat.byteAt_of_spared ht (by rw [hcfg]; exact hb)).trans (ha hra hb)

theorem Changes.sameMemory_of_read (h : Changes q s t) (hq : q.value = none) (hr : t.needsReset = false) : sameMemory s t :=
  fun _ _ => h.byteAt_of_spared hr (.inl hq)

theorem exec_ggtt_bytes (hupdate : ∀ k e, i ≠ .ggttUpdate k e) (hmi : ∀ l, i ≠ .miUpdateGtt l) (hreset : i ≠ .reset)
    (h : exec i s = .next t) (hr : t.needsReset = false) {b : Nat} (hlo : s.cfg.ggttBase.toNat ≤ b)
    (hhi : b < s.cfg.ggttBase.toNat + 2 ^ 23) : t.byteAt .system b = s.byteAt .system b := by
  cases exec_answers h with
  | entry _ _ _ hc | read hc | write hc | response _ _ hc => exact hc.byteAt_of_spared hr (.inr ⟨rfl, hlo, hhi⟩)
  | ggttUpdate => exact absurd rfl (hupdate _ _)
  | miUpdateGtt => exact absurd rfl (hmi _)
  | reset => exact absurd rfl hreset
  | store hg => exact byteAt_physWrite_of_not_inGgtt (who := .host) (by simpa using hg) hlo hhi
  | _ => exact byteAt_congr (by simp) (by simp) _ _

/-! ## Cached translations -/

/-- What `s` has cached of a context's translations is cached in `t` too. -/
def KeepsCandidates (c : CtxId) (s t : State) : Prop :=
  (∀ e ∈ (s.ctx c).caches.tlb, e ∈ (t.ctx c).caches.tlb) ∧ (∀ e ∈ (s.ctx c).caches.trTlb, e ∈ (t.ctx c).caches.trTlb)

namespace KeepsCandidates

theorem of_caches (htlb : (t.ctx c).caches.tlb = (s.ctx c).caches.tlb) (htr : (t.ctx c).caches.trTlb = (s.ctx c).caches.trTlb) :
    KeepsCandidates c s t :=
  ⟨fun e he => by rwa [htlb], fun e he => by rwa [htr]⟩

theorem of_ctx (h : t.ctx c = s.ctx c) : KeepsCandidates c s t := of_caches (by rw [h]) (by rw [h])

theorem trans (h : KeepsCandidates c s t) (h' : KeepsCandidates c t u) : KeepsCandidates c s u :=
  ⟨fun e he => h'.1 e (h.1 e he), fun e he => h'.2 e (h.2 e he)⟩

theorem fillTlb (s : State) (c c' : CtxId) (e : TlbEntry) : KeepsCandidates c s (s.fillTlb c' e) := by
  by_cases hc : c = c'
  · subst hc
    obtain ⟨l, hctx, hl⟩ := ctx_fillTlb_same s c e
    rw [KeepsCandidates, hctx]
    exact ⟨fun x hx => (hl x).2 (.inr hx), fun x hx => hx⟩
  · exact of_ctx (ctx_fillTlb_other s c' e hc)

theorem fillTrTlb (s : State) (c c' : CtxId) (e : TrTlbEntry) : KeepsCandidates c s (s.fillTrTlb c' e) := by
  by_cases hc : c = c'
  · subst hc
    obtain ⟨l, hctx, hl⟩ := ctx_fillTrTlb_same s c e
    rw [KeepsCandidates, hctx]
    exact ⟨fun x hx => hx, fun x hx => (hl x).2 (.inr hx)⟩
  · exact of_ctx (ctx_fillTrTlb_other s c' e hc)

theorem fillPml4 (s : State) (c c' : CtxId) (page : Word64) : KeepsCandidates c s (s.fillPml4 c' page) := by
  by_cases hc : c = c'
  · subst hc
    exact of_caches (by rw [ctx_fillPml4_same]) (by rw [ctx_fillPml4_same])
  · exact of_ctx (ctx_fillPml4_other s c' page hc)

/-- A register write keeps the translations made under the old values (70_reset_and_hazards R306). -/
theorem setRegs (s : State) (c : CtxId) (k : Nat) (r : TrRegs) : KeepsCandidates c s (s.setRegs k r) := by
  by_cases hc : c = .proc k
  · subst hc
    obtain ⟨_, hctx, -⟩ := ctx_setRegs_same s k r
    exact of_caches (by rw [hctx]) (by rw [hctx])
  · exact of_ctx (ctx_setRegs_other s k r hc)

end KeepsCandidates

theorem Change.keepsCandidates (h : Change q s t) : KeepsCandidates c s t := by
  cases h with
  | tlb e => exact .fillTlb s c q.ctx e
  | trTlb e => exact .fillTrTlb s c q.ctx e
  | pml4 page => exact .fillPml4 s c q.ctx page
  | draw | walk | result | irq | halt | nullcnt | needsReset | store | spurious => exact .of_ctx (ctx_congr rfl rfl c)

theorem Changes.keepsCandidates (h : Changes q s t) : KeepsCandidates c s t :=
  h.rec_on (P := KeepsCandidates c) (.of_ctx rfl) fun _ _ hab ha => ha.trans hab.keepsCandidates

theorem exec_keepsCandidates (hreset : i ≠ .reset) (hload : ∀ m, i ≠ .ctxLoad c m) (h : exec i s = .next t) :
    KeepsCandidates c s t := by
  cases exec_answers h with
  | entry _ _ _ hc => exact hc.keepsCandidates
  | read hc | write hc | response _ _ hc => exact (KeepsCandidates.of_ctx (ctx_congr rfl rfl c)).trans hc.keepsCandidates
  | register k regs => exact (KeepsCandidates.setRegs s c k regs).trans (.of_ctx (ctx_congr rfl rfl c))
  | miUpdateGtt => exact .of_ctx (execMiUpdateGtt_ctx h)
  | load | loadValues | loadRegisters => exact .of_ctx (execCtxLoad_ctx_other (fun hd => hload _ (by rw [hd])) h)
  | reset => exact absurd rfl hreset
  | bypass | mmioRead | ggttUpdate | storeNothing | store | loadNothing | ack => exact .of_ctx (ctx_congr rfl rfl c)

/-! ## Events of the platform -/

/-- A state in which nothing is cached of a context, at its last event. -/
theorem cold_of_caches {n : Nat} (h : (s.ctx c).caches = { Caches.empty with since := n }) (hb : s.breach ≤ s.lastEvent c) :
    s.cold c := by
  refine ⟨by rw [h]; rfl, by rw [h]; rfl, by rw [h]; rfl, ?_, by rw [h]; rfl⟩
  simpa [State.broken] using hb

theorem platformEvent_ctx_of_not_added {name : Nat} {d : Option CtxId} (h : name ∉ s.cfg.addedEvents ∨ (d ≠ none ∧ d ≠ some c)) :
    (s.platformEvent name d).ctx c = s.ctx c := by
  unfold State.platformEvent
  split
  · next hin =>
    obtain hout | ⟨hnone, hne⟩ := h
    · exact absurd (List.contains_iff_mem.1 hin) hout
    · split
      · next d' => exact ctx_setCaches_other s d' _ fun hc => hne (by rw [hc])
      · exact absurd rfl hnone
  · rfl

/-- A context that an added event is for has nothing cached afterwards, and its last event is no earlier than the event. -/
theorem platformEvent_caches {name : Nat} {d : Option CtxId} (hin : name ∈ s.cfg.addedEvents) (hd : d = none ∨ d = some c) :
    (∃ n, ((s.platformEvent name d).ctx c).caches = { Caches.empty with since := n }) ∧
      s.clock ≤ (s.platformEvent name d).lastEvent c := by
  have hadded : s.cfg.addedEvents.contains name = true := List.contains_iff_mem.2 hin
  obtain rfl | rfl := hd
  · refine ⟨?_, platformEvent_all_lastEvent s c name hadded⟩
    rw [State.platformEvent, if_pos hadded]
    cases c with
    | global => exact ⟨_, rfl⟩
    | proc k =>
      simp only [State.ctx, assocGet_map (fun x : Ctx => { x with caches := s.flushed })]
      cases assocGet s.ctxs k <;> exact ⟨_, rfl⟩
  · have hcaches : ((s.platformEvent name (some c)).ctx c).caches = s.flushed := by
      rw [State.platformEvent, if_pos hadded, ctx_setCaches_same]
    refine ⟨⟨_, hcaches⟩, ?_⟩
    rw [State.lastEvent, hcaches]
    exact Nat.le_max_left ..

theorem platformEvent_sameRegisters (s : State) (name : Nat) (d : Option CtxId) : sameRegisters s (s.platformEvent name d) := by
  refine ⟨by simp, by simp, by simp, fun c => ?_⟩
  obtain ⟨_, hctx, -⟩ := ctx_platformEvent s c name d
  rw [hctx]
  exact ⟨rfl, rfl, rfl, rfl, rfl, rfl⟩

theorem platformEvent_unchanged (s : State) (name : Nat) (d : Option CtxId) : unchanged s (s.platformEvent name d) :=
  ⟨byteAt_congr (by simp) (by simp), platformEvent_sameRegisters s name d, ⟨by simp, by simp, by simp⟩, platformEvent_nullcnt s name d⟩

end Memory

/-- Settles O11: a store of a request or of the host that is performed lies outside the GGTT, and a fault that frees memory leaves
`needs_reset` set. -/
theorem ggttChangesOnlyThroughItsWindow : Obligations.GgttChangesOnlyThroughItsWindow :=
  fun _ _ _ hupdate hmi hreset h hr _ hlo hhi => exec_ggtt_bytes hupdate hmi hreset h hr hlo hhi

/-- Settles O15: every elementary change of a request and every operation but RESET and the context's CTX_LOAD keeps the candidates; an
event of the platform leaves its contexts with the empty caches, at its own time. -/
theorem cachedTranslationsLastUntilAnInvalidationEvent : Obligations.CachedTranslationsLastUntilAnInvalidationEvent := by
  refine ⟨fun _ _ _ _ hreset hload h => exec_keepsCandidates hreset hload h, ?_⟩
  intro s name d rest hwalk hschedule hbreach hhist
  have hstep : step s = .next (State.platformEvent { s with schedule := rest } name d) := by simp only [step, hwalk, hschedule]
  refine ⟨_, hstep, by simp, platformEvent_unchanged _ name d, ?_, ?_⟩
  · intro hin c hd
    obtain ⟨⟨_, hcaches⟩, hlast⟩ := platformEvent_caches (s := { s with schedule := rest }) hin hd
    refine ⟨cold_of_caches hcaches ?_, fun sp a n => writesTo_nil _ c sp a n fun w hw => ?_⟩
    · rw [platformEvent_breach]; exact hbreach.trans hlast
    · rw [platformEvent_hist] at hw; exact (hhist w hw).trans hlast
  · intro c hc
    exact (platformEvent_ctx_of_not_added (s := { s with schedule := rest }) hc).trans (ctx_congr rfl rfl c)

end Sys2Proof.Machine

/-! # How a walk moves

What one entry, or the beginning of a translation, does to the state: the walk goes on with nothing but caches and free values changed, or
the request ends in one of the ways of 40_request_pipeline R152, R153 and 60_exceptions R272, R277. -/

namespace Sys2Proof.Machine

section Moves

variable {s s0 s1 t u : State} {q : Request} {c : CtxId} {i : Instr} {wk : Walk} {b : Bool} {st : Stage} {may : Prop}

/-! ## Looking things up -/

/-- From `s` to `t` nothing that a rule reads has changed but what is cached of `c`: the walker has looked at tables, filled caches, drawn
free values and moved its walk. -/
structure Looks (c : CtxId) (s t : State) : Prop extends TouchesOnlyCaches c s t where
  nullcnt : t.nullcnt = s.nullcnt
  hist : t.hist = s.hist
  breach : t.breach = s.breach
  flushedAt : t.flushedAt = s.flushedAt
  since : (t.ctx c).caches.since = (s.ctx c).caches.since

namespace Looks

theorem trans (h : Looks c s t) (h' : Looks c t u) : Looks c s u where
  toTouchesOnlyCaches := h.toTouchesOnlyCaches.trans h'.toTouchesOnlyCaches
  nullcnt := h'.nullcnt.trans h.nullcnt
  hist := h'.hist.trans h.hist
  breach := h'.breach.trans h.breach
  flushedAt := h'.flushedAt.trans h.flushedAt
  since := h'.since.trans h.since

theorem setWalk (s : State) (c : CtxId) (w : Option Walk) (r : Result) (d : Nat) (n : Nat) (l : List Input) :
    Looks c s { s with walk := w, result := r, draws := d, nextReq := n, schedule := l } where
  toTouchesOnlyCaches := ⟨rfl, rfl, rfl, rfl, rfl, ⟨rfl, rfl, rfl⟩, ⟨_, ctx_congr rfl rfl c⟩, fun c' _ => ctx_congr rfl rfl c'⟩
  nullcnt := rfl
  hist := rfl
  breach := rfl
  flushedAt := rfl
  since := congrArg (·.caches.since) (ctx_congr rfl rfl c)

theorem draw (s : State) (c : CtxId) (d : Nat) : Looks c s { s with draws := d } := setWalk s c s.walk s.result d s.nextReq s.schedule

theorem refl (s : State) (c : CtxId) : Looks c s s := draw s c s.draws

theorem fillTlb (s : State) (c : CtxId) (e : TlbEntry) : Looks c s (s.fillTlb c e) where
  toTouchesOnlyCaches := .fillTlb s c e
  nullcnt := fillTlb_nullcnt s c e
  hist := fillTlb_hist s c e
  breach := fillTlb_breach s c e
  flushedAt := fillTlb_flushedAt s c e
  since := by
    obtain ⟨_, hctx, -⟩ := ctx_fillTlb_same s c e
    rw [hctx]

theorem fillTrTlb (s : State) (c : CtxId) (e : TrTlbEntry) : Looks c s (s.fillTrTlb c e) where
  toTouchesOnlyCaches := .fillTrTlb s c e
  nullcnt := fillTrTlb_nullcnt s c e
  hist := fillTrTlb_hist s c e
  breach := fillTrTlb_breach s c e
  flushedAt := fillTrTlb_flushedAt s c e
  since := by
    obtain ⟨_, hctx, -⟩ := ctx_fillTrTlb_same s c e
    rw [hctx]

theorem fillPml4 (s : State) (c : CtxId) (page : Word64) : Looks c s (s.fillPml4 c page) where
  toTouchesOnlyCaches := .fillPml4 s c page
  nullcnt := fillPml4_nullcnt s c page
  hist := fillPml4_hist s c page
  breach := fillPml4_breach s c page
  flushedAt := fillPml4_flushedAt s c page
  since := by rw [ctx_fillPml4_same]

theorem choose {α : Type} (s : State) (c : CtxId) (l : List α) : Looks c s (s.choose l).2 := by
  unfold State.choose
  split
  · exact refl s c
  · exact draw s c _

theorem readTable (s : State) (c c' : CtxId) (sp : Space) (pa : Word64) (n : Nat) : Looks c s (s.readTable c' sp pa n).2 := by
  unfold State.readTable; dsimp only
  split
  · exact draw s c _
  · exact refl s c

theorem readData (s : State) (c : CtxId) (e : Engine) (c' : CtxId) (sp : Space) (pa : Word64) (n : Nat) :
    Looks c s (s.readData e c' sp pa n).2 := by
  unfold State.readData; dsimp only
  split
  · exact refl s c
  · exact draw s c _

theorem pickRegs (s : State) (c c' : CtxId) : Looks c s (s.pickRegs c').2 := by
  unfold State.pickRegs; dsimp only
  split
  · exact refl s c
  · exact draw s c _

theorem fetch (wk : Walk) (s : State) (c : CtxId) : Looks c s (fetch wk s).2 := by
  unfold Machine.fetch fetchWord; dsimp only
  split
  · exact refl s c
  · split
    · split
      · exact refl s c
      · exact readTable ..
    · exact refl s c
    all_goals exact readTable ..

theorem broken (h : Looks c s t) : t.broken c = s.broken c := broken_congr c h.since h.flushedAt h.breach

end Looks

/-! ## The relation -/

/-- `Moves q b st may s t`: the walker, serving `q`, spuriously or not as `b` says, has gone from `s` to `t`. The stage is that of a walk
whose entry may be not present; the interrupt becomes pending only where `may` holds. -/
inductive Moves (q : Request) (b : Bool) (st : Stage) (may : Prop) (s : State) : State → Prop where
  | goOn {s' : State} (wk' : Walk) (h : Looks q.ctx s s') (hq : wk'.req = q) (hb : wk'.spurious = b) :
      Moves q b st may s { s' with walk := some wk' }
  | spuriousEnd {s' : State} (wk' : Walk) (v : Word32) (irq : Bool) (h : Looks q.ctx s s') (hq : wk'.req = q) (hb : b = true)
      (hirq : irq = true → may) :
      Moves q b st may s (endSpurious wk' { s' with nullcnt := v, irqInvalidTile := irq || s'.irqInvalidTile })
  | spuriousStore {s' : State} (wk' : Walk) (sp : Space) (pa : Word64) (v : Nat) (h : Looks q.ctx s s') (hq : wk'.req = q) (hb : b = true)
      (hv : q.value = some v) :
      Moves q b st may s (endSpurious wk' (s'.physWrite (.engine q.agent) sp pa (leBytes q.n v)))
  | completed {s' : State} (r : Result) (v : Word32) (irq : Bool) (h : Looks q.ctx s s') (hb : b = false)
      (hr : ∀ k x, r ≠ .halted k x) (hirq : irq = true → may) :
      Moves q b st may s { s' with walk := none, result := r, nullcnt := v, irqInvalidTile := irq || s'.irqInvalidTile }
  | stored {s' : State} (sp : Space) (pa : Word64) (v : Nat) (h : Looks q.ctx s s') (hb : b = false) (hv : q.value = some v) :
      Moves q b st may s
        { s'.physWrite (.engine q.agent) sp pa (leBytes q.n v) with walk := none, result := .write q.id }
  | halted {s' : State} (x : Halted) (h : Looks q.ctx s s') (hb : b = false) (hq : x.req = q) :
      Moves q b st may s
        { s' with walk := none, halted := assocPut s'.halted q.id x, result := .halted q.id x.cause }
  | nonRecoverable {s' : State} (wk' : Walk) (h : Looks q.ctx s s') (hq : wk'.req = q)
      (hv : q.value.isSome = true ∨ wk'.stage = st) : Moves q b st may s (nonRecoverable wk' s')

/-- Where the outcome is a next state, the walker has moved to it. -/
def MovesTo (q : Request) (b : Bool) (st : Stage) (may : Prop) (s : State) (o : Out) : Prop :=
  ∀ t, o = .next t → Moves q b st may s t

theorem MovesTo.next (h : Moves q b st may s t) : MovesTo q b st may s (.next t) := by rintro _ ⟨⟩; exact h
theorem MovesTo.refused (r : Refusal) : MovesTo q b st may s (.refused r) := by rintro _ ⟨⟩
theorem MovesTo.fault (f : Fault) : MovesTo q b st may s (.fault f) := by rintro _ ⟨⟩

/-! ## The end of a request -/

theorem refuseWalk_moves (why : Refusal) (hq : wk.req = q) (hb : wk.spurious = b) (h : Looks q.ctx s0 s) :
    MovesTo q b st may s0 (refuseWalk wk why s) := by
  unfold refuseWalk
  split
  · next hs => exact .next (.spuriousEnd wk s.nullcnt false h hq (hb.symm.trans hs) (by rintro ⟨⟩))
  · exact .refused why

/-- A completion, with the counter and the interrupt as they may be. -/
theorem complete_moves {r : Result} (v : Word32) (irq : Bool) (hr : ∀ k x, r ≠ .halted k x) (hirq : irq = true → may)
    (hq : wk.req = q) (hb : wk.spurious = b) (h : Looks q.ctx s0 s) :
    MovesTo q b st may s0 (complete wk r { s with nullcnt := v, irqInvalidTile := irq || s.irqInvalidTile }) := by
  unfold complete
  split
  · next hs => exact .next (.spuriousEnd wk v irq h hq (hb.symm.trans hs) hirq)
  · next hs => exact .next (.completed r v irq h (hb.symm.trans (by simpa using hs)) hr hirq)

theorem nullCompletion_ne_halted (k : Nat) (x : Cause) : nullCompletion wk ≠ .halted k x := by
  unfold nullCompletion; split <;> simp

theorem raiseFault_moves (x : Cause) (hq : wk.req = q) (hb : wk.spurious = b) (hv : q.value.isSome = true ∨ wk.stage = st)
    (h : Looks q.ctx s0 s) : MovesTo q b st may s0 (raiseFault wk x s) := by
  unfold raiseFault
  split
  · next hs =>
    have hs : wk.spurious = false := by
      simp only [Bool.and_eq_true, Bool.not_eq_true'] at hs
      exact hs.1
    subst hq
    exact .next (.halted { req := wk.req, cause := x, stage := wk.stage } h (hb.symm.trans hs) rfl)
  · exact .next (.nonRecoverable wk h hq hv)

theorem nullTile_moves (hq : wk.req = q) (hb : wk.spurious = b) (h : Looks q.ctx s0 s) : MovesTo q b st may s0 (nullTile wk s) :=
  complete_moves (s := { s with draws := s.draws + 1 }) (Config.nullTileCount s.draws) false nullCompletion_ne_halted (by rintro ⟨⟩) hq hb
    (h.trans (.draw s q.ctx _))

theorem invalidTile_moves (hmay : may) (hq : wk.req = q) (hb : wk.spurious = b) (h : Looks q.ctx s0 s) :
    MovesTo q b st may s0 (invalidTile wk s) :=
  complete_moves s.nullcnt true nullCompletion_ne_halted (fun _ => hmay) hq hb h

/-! ## The data access -/

theorem accessPhys_moves (sp : Space) (pa : Word64) (w : Bool) (hq : wk.req = q) (hb : wk.spurious = b) (h : Looks q.ctx s0 s) :
    MovesTo q b st may s0 (accessPhys wk sp pa w s) := by
  unfold accessPhys
  split
  · exact complete_moves _ false (by rintro _ _ ⟨⟩) (by rintro ⟨⟩) hq hb (h.trans (.readData ..))
  · next v hv =>
    subst hq
    split
    · exact raiseFault_moves _ rfl hb (.inl (by rw [hv]; rfl)) h
    · split
      · exact refuseWalk_moves _ rfl hb h
      · unfold complete
        split
        · next hs => exact .next (.spuriousStore wk sp pa v h rfl (hb.symm.trans hs) hv)
        · next hs => exact .next (.stored sp pa v h (hb.symm.trans (by simpa using hs)) hv)

theorem accessNullPage_moves (w : Bool) (hq : wk.req = q) (hb : wk.spurious = b) (h : Looks q.ctx s0 s) :
    MovesTo q b st may s0 (accessNullPage wk w s) := by
  unfold accessNullPage
  split
  · next hv =>
    simp only [Bool.and_eq_true] at hv
    exact raiseFault_moves _ hq hb (.inl (hq ▸ hv.1)) h
  · exact complete_moves s.nullcnt false nullCompletion_ne_halted (by rintro ⟨⟩) hq hb h

theorem ggttDone_moves (out : Mapping) (hq : wk.req = q) (hb : wk.spurious = b) (h : Looks q.ctx s0 s) :
    MovesTo q b st may s0 (ggttDone wk out s) := by
  unfold ggttDone
  split
  · exact accessPhys_moves _ _ _ hq hb h
  · exact accessNullPage_moves _ hq hb h

theorem ppgttDone_moves (z : PageSize) (out : Mapping) (nested : Bool) (deps : List Dep) (hq : wk.req = q) (hb : wk.spurious = b)
    (h : Looks q.ctx s0 s) : MovesTo q b st may s0 (ppgttDone wk z out nested deps s) := by
  unfold ppgttDone
  split
  · split
    · exact refuseWalk_moves _ hq hb h
    · split
      · exact accessPhys_moves _ _ _ hq hb h
      · exact .next (.goOn _ h hq hb)
  · split
    · exact accessNullPage_moves _ hq hb h
    · exact refuseWalk_moves _ hq hb h

/-! ## The start of a walk -/

theorem beginGgtt_moves (hq : wk.req = q) (hb : wk.spurious = b) (h : Looks q.ctx s0 s) :
    MovesTo q b st may s0 (beginGgtt wk s) := by
  have hl := h.trans (.choose s q.ctx ((s.ctx wk.req.ctx).caches.tlb.filter fun e => e.global == true && e.vbase == pageBase e.size wk.va))
  unfold beginGgtt State.lookupTlb; dsimp only
  split
  · exact ggttDone_moves _ hq hb hl
  · split
    · exact refuseWalk_moves _ hq hb hl
    · split
      · exact refuseWalk_moves _ hq hb hl
      · exact .next (.goOn _ hl hq hb)

theorem beginPpgtt_moves (hq : wk.req = q) (hb : wk.spurious = b) (h : Looks q.ctx s0 s) :
    MovesTo q b st may s0 (beginPpgtt wk s) := by
  have hl := h.trans (.choose s q.ctx ((s.ctx wk.req.ctx).caches.tlb.filter fun e => e.global == false && e.vbase == pageBase e.size wk.va))
  unfold beginPpgtt State.lookupTlb; dsimp only
  split
  · exact ppgttDone_moves _ _ _ _ hq hb hl
  · split
    · exact refuseWalk_moves _ hq hb hl
    · split
      · exact .fault _
      · split
        · exact refuseWalk_moves _ hq hb hl
        · subst hq
          exact .next (.goOn _ (hl.trans (.fillPml4 ..)) rfl hb)

theorem tableRead_moves (l : TrLevel) (a : Word64) (hq : wk.req = q) (hb : wk.spurious = b) (h : Looks q.ctx s0 s) :
    MovesTo q b st may s0 (tableRead wk l a s) := by
  unfold tableRead
  split
  · exact refuseWalk_moves _ hq hb h
  · exact refuseWalk_moves _ hq hb h
  · exact beginPpgtt_moves (by exact hq) hb h

theorem tileDone_moves (o : TileOut) (hmay : o = .invalid → may) (hq : wk.req = q) (hb : wk.spurious = b) (h : Looks q.ctx s0 s) :
    MovesTo q b st may s0 (tileDone wk o s) := by
  unfold tileDone
  split
  · exact beginPpgtt_moves (by exact hq) hb h
  · exact nullTile_moves hq hb h
  · exact invalidTile_moves (hmay rfl) hq hb h

theorem beginTrtt_moves (hq : wk.req = q) (hb : wk.spurious = b) (h : Looks q.ctx s0 s) :
    MovesTo q b st True s0 (beginTrtt wk s) := by
  have hl := h.trans (.choose s q.ctx ((s.ctx wk.req.ctx).caches.trTlb.filter fun e => e.tile == tileOf wk.req.gva))
  unfold beginTrtt State.lookupTrTlb; dsimp only
  split
  · exact tileDone_moves _ (fun _ => trivial) hq hb hl
  · split
    · exact refuseWalk_moves _ hq hb hl
    · split
      · exact refuseWalk_moves _ hq hb hl
      · exact tableRead_moves _ _ hq hb hl

theorem beginTranslate_moves (h : Looks q.ctx s0 s) : MovesTo q false st True s0 (beginTranslate q s) := by
  have hl := h.trans (.pickRegs s q.ctx q.ctx)
  unfold beginTranslate; dsimp only
  split
  · split
    · exact .refused _
    · exact beginGgtt_moves rfl rfl hl
  · split
    · split
      · exact .refused _
      · split
        · exact beginTrtt_moves rfl rfl hl
        · exact .refused _
      · exact beginPpgtt_moves rfl rfl hl
    · exact beginPpgtt_moves rfl rfl hl
  · exact .refused _
  · exact .refused _

/-! ## The entries -/

@[simp] theorem noted_req (wk : Walk) : wk.noted.req = wk.req := by unfold Walk.noted; split <;> rfl
@[simp] theorem noted_spurious (wk : Walk) : wk.noted.spurious = wk.spurious := by unfold Walk.noted; split <;> rfl
@[simp] theorem noted_va (wk : Walk) : wk.noted.va = wk.va := by unfold Walk.noted; split <;> rfl
@[simp] theorem noted_regs (wk : Walk) : wk.noted.regs = wk.regs := by unfold Walk.noted; split <;> rfl

theorem descend_moves (next : Pos) (base : Word64) (k : BitVec 9) (rw : Bool) (hq : wk.req = q) (hb : wk.spurious = b)
    (h : Looks q.ctx s0 s) : MovesTo q b st may s0 (descend wk next base k rw s) := by
  unfold descend
  split
  · exact refuseWalk_moves _ hq hb h
  · exact .next (.goOn _ h (by simpa using hq) (by simpa using hb))

theorem leaf_moves (z : PageSize) (base : Word64) (sp : Space) (mt : BitVec 3) (f : LeafBits) (hq : wk.req = q) (hb : wk.spurious = b)
    (h : Looks q.ctx s0 s) : MovesTo q b st may s0 (leaf wk z base sp mt f s) := by
  subst hq
  exact ppgttDone_moves _ _ _ _ (by simp) (by simpa using hb) (h.trans (.fillTlb ..))

theorem tileFound_moves (o : TileOut) (hmay : o = .invalid → may) (hq : wk.req = q) (hb : wk.spurious = b) (h : Looks q.ctx s0 s) :
    MovesTo q b st may s0 (tileFound wk o s) := by
  subst hq
  exact tileDone_moves _ hmay rfl hb (h.trans (.fillTrTlb ..))

theorem trDescend_moves (x : Bool) (l : TrLevel) (a : Word64) (hq : wk.req = q) (hb : wk.spurious = b) (h : Looks q.ctx s0 s) :
    MovesTo q b st may s0 (trDescend wk x l a s) := by
  unfold trDescend
  split
  · exact refuseWalk_moves _ hq hb h
  · exact tableRead_moves _ _ (by exact hq) hb h

/-- The entry says Invalid of its tile (41_trtt R178, R179). -/
def saysInvalid (r : TrRegs) (i : Instr) : Prop := ∃ pos, tileView r i = some (pos, .invalid)

/-- Whatever entry is executed, the walker moves; the interrupt becomes pending only by an entry that says Invalid, and a fault that the
entry itself is, is one of the walk's stage. -/
theorem execEntry_moves (i : Instr) (hs : s.walk = some wk) (h : Looks wk.req.ctx s0 s) :
    MovesTo wk.req wk.spurious wk.stage (saysInvalid wk.regs i) s0 (execEntry i s) := by
  have key : ∀ (pos : Pos) (f : Walk → Out), MovesTo wk.req wk.spurious wk.stage (saysInvalid wk.regs i) s0 (f wk) →
      MovesTo wk.req wk.spurious wk.stage (saysInvalid wk.regs i) s0
        (match s.walkAt pos with | none => .refused .entryOutOfPlace | some w => f w) := by
    intro pos f hf
    cases hp : s.walkAt pos with
    | none => exact .refused _
    | some w =>
      obtain rfl : wk = w := Option.some.inj (hs.symm.trans (walkAt_eq.1 hp).1)
      exact hf
  cases i with
  | ggttPte a fn => exact key .ggtt _ (ggttDone_moves _ (by simp) (by simp) (h.trans (.fillTlb ..)))
  | pml4e a rw => exact key .pml4 _ (descend_moves _ _ _ _ rfl rfl h)
  | pdpePd a rw => exact key .pdp _ (descend_moves _ _ _ _ rfl rfl h)
  | pdpe1gb a lm f => exact key .pdp _ (leaf_moves _ _ _ _ _ rfl rfl h)
  | pdePt a x rw =>
    refine key .pd _ ?_
    split <;> exact descend_moves _ _ _ _ rfl rfl h
  | pde2mb a lm f => exact key .pd _ (leaf_moves _ _ _ _ _ rfl rfl h)
  | pte64kb a lm f => exact key .pt64k _ (leaf_moves _ _ _ _ _ rfl rfl h)
  | pte4kb a f => exact key .pt4k _ (leaf_moves _ _ _ _ _ rfl rfl h)
  | notPresent =>
    simp only [execEntry, execNotPresent, hs]
    split
    · exact .refused _
    · exact raiseFault_moves _ rfl rfl (.inr rfl) h
  | trttL3Pointer a => exact key .trL3 _ (trDescend_moves _ _ _ rfl rfl h)
  | trttL3Null => exact key .trL3 _ (tileFound_moves .null (by rintro ⟨⟩) rfl rfl h)
  | trttL3Invalid => exact key .trL3 _ (tileFound_moves .invalid (fun _ => ⟨_, rfl⟩) rfl rfl h)
  | trttL3NullAndInvalid => exact key .trL3 _ (refuseWalk_moves _ rfl rfl h)
  | trttL2Pointer a => exact key .trL2 _ (trDescend_moves _ _ _ rfl rfl h)
  | trttL2Null => exact key .trL2 _ (tileFound_moves .null (by rintro ⟨⟩) rfl rfl h)
  | trttL2Invalid => exact key .trL2 _ (tileFound_moves .invalid (fun _ => ⟨_, rfl⟩) rfl rfl h)
  | trttL2NullAndInvalid => exact key .trL2 _ (refuseWalk_moves _ rfl rfl h)
  | trttL1 a =>
    refine key .trL1 _ ?_
    split
    · split
      · exact refuseWalk_moves _ rfl rfl h
      · exact tileFound_moves (.mapped _) (by rintro ⟨⟩) rfl rfl h
    · exact tileFound_moves .null (by rintro ⟨⟩) rfl rfl h
    · next ho => exact tileFound_moves .invalid (fun _ => ⟨_, congrArg (fun o => some (Pos.trL1, o)) ho⟩) rfl rfl h
  | _ => exact .refused _

/-- A step of the walker inside an operation: the fetch, and the entry. -/
theorem walkStep_moves (hs : s.walk = some wk) : ∃ r i, fetch wk s = (i, r) ∧
    MovesTo wk.req wk.spurious wk.stage (saysInvalid wk.regs i) s (walkStep wk s) :=
  ⟨_, _, rfl, execEntry_moves _ (by rw [fetch_walk, hs]) (.fetch wk s _)⟩

end Moves

end Sys2Proof.Machine

/-! # A request from step to step

What holds along the walk of a request: memory that an entry leaves alone (20_memory R81), a halt that has had no effect (60_exceptions R272),
an end within the operation (10_state R64), and the same end for the steps of the machine (40_request_pipeline R150). -/

namespace Sys2Proof.Machine

section Walks

variable {s t u : State} {q : Request} {i : Instr} {wk : Walk} {b : Bool} {st : Stage} {may : Prop}

/-! ## Memory -/

theorem sameMemory_of_mem (hm : t.mem = s.mem) (he : t.epoch = s.epoch) : sameMemory s t := byteAt_congr hm he

/-- Of a READ the walker frees memory only in a table read, and asks for a reset with it. -/
theorem Moves.sameMemory_of_read (h : Moves q b st may s t) (hq : q.value = none) (hst : st = .data ∨ t.needsReset = false) :
    sameMemory s t := by
  cases h with
  | goOn wk' hl | completed r v irq hl | halted x hl => exact sameMemory_of_mem hl.mem hl.epoch
  | spuriousEnd wk' v irq hl hreq =>
    refine sameMemory_of_mem ?_ ?_ <;> simp [endSpurious, hreq, hq, hl.mem, hl.epoch]
  | spuriousStore wk' sp pa v hl hreq hb hv | stored sp pa v hl hb hv => rw [hq] at hv; cases hv
  | nonRecoverable wk' hl hreq hv =>
    obtain hv | hstage := hv
    · rw [hq] at hv; cases hv
    · obtain rfl | hr := hst
      · simp only [Machine.nonRecoverable, hstage]
        exact sameMemory_of_mem hl.mem hl.epoch
      · cases hs : wk'.stage <;> simp [Machine.nonRecoverable, hs] at hr

/-- A TR-TT table read is no data access: finding a page for it only moves the walk. -/
theorem ppgttDone_table_mem {z : PageSize} {out : Mapping} {nested : Bool} {deps : List Dep} {l : TrLevel} (hs : wk.spurious = false)
    (hst : wk.stage = .table l) (h : ppgttDone wk z out nested deps s = .next t) : t.mem = s.mem ∧ t.epoch = s.epoch := by
  unfold ppgttDone at h
  split at h
  · split at h
    · exact absurd h (refuseWalk_ne_next hs _)
    · simp only [hst] at h
      cases h
      exact ⟨rfl, rfl⟩
  · simp only [hst] at h
    exact absurd h (refuseWalk_ne_next hs _)

theorem beginPpgtt_table_mem {l : TrLevel} (hs : wk.spurious = false) (hst : wk.stage = .table l)
    (h : beginPpgtt wk s = .next t) : t.mem = s.mem ∧ t.epoch = s.epoch := by
  have hl : Looks wk.req.ctx s (s.lookupTlb wk.req.ctx false wk.va).2 := .choose s _ _
  unfold beginPpgtt at h; dsimp only at h
  split at h
  · obtain ⟨hmem, hepoch⟩ := ppgttDone_table_mem hs hst h
    exact ⟨hmem.trans hl.mem, hepoch.trans hl.epoch⟩
  · split at h
    · exact absurd h (refuseWalk_ne_next hs _)
    · split at h
      · cases h
      · split at h
        · exact absurd h (refuseWalk_ne_next hs _)
        · cases h
          exact ⟨(fillPml4_mem ..).trans hl.mem, (fillPml4_epoch ..).trans hl.epoch⟩

theorem trDescend_mem {x : Bool} {l : TrLevel} {a : Word64} (hs : wk.spurious = false) (h : trDescend wk x l a s = .next t) :
    t.mem = s.mem ∧ t.epoch = s.epoch := by
  unfold trDescend at h
  split at h
  · exact absurd h (refuseWalk_ne_next hs _)
  · unfold tableRead at h
    split at h
    · exact absurd h (refuseWalk_ne_next hs _)
    · exact absurd h (refuseWalk_ne_next hs _)
    · exact beginPpgtt_table_mem (wk := { wk.trNoted with stage := .table l, va := va48 a, forced := none }) hs rfl h

theorem descend_mem {next : Pos} {base : Word64} {k : BitVec 9} {rw : Bool} (hs : wk.spurious = false)
    (h : descend wk next base k rw s = .next t) : t.mem = s.mem ∧ t.epoch = s.epoch := by
  unfold descend at h
  split at h
  · exact absurd h (refuseWalk_ne_next hs _)
  · cases h
    exact ⟨rfl, rfl⟩

/-- A pointer entry of either kind is a descent of the walk in progress, or out of place. -/
theorem exec_pointer_mem (hwalk : s.walk = some wk) (hs : wk.spurious = false)
    (hp : (pointerView wk.va i).isSome = true ∨ (trPointerView wk.req.gva i).isSome = true) (h : exec i s = .next t) :
    t.mem = s.mem ∧ t.epoch = s.epoch := by
  have key : ∀ (pos : Pos) (f : Walk → Out),
      (match s.walkAt pos with | none => Host.Outcome.refused Refusal.entryOutOfPlace | some w => f w) = .next t → f wk = .next t := by
    intro pos f hf
    cases hat : s.walkAt pos with
    | none => rw [hat] at hf; cases hf
    | some w =>
      rw [hat] at hf
      obtain rfl : wk = w := Option.some.inj (hwalk.symm.trans (walkAt_eq.1 hat).1)
      exact hf
  cases i with
  | pml4e a rw => exact descend_mem hs (key .pml4 _ h)
  | pdpePd a rw => exact descend_mem hs (key .pdp _ h)
  | pdePt a x rw =>
    have h := key .pd _ h
    split at h <;> exact descend_mem hs h
  | trttL3Pointer a => exact trDescend_mem hs (key .trL3 _ h)
  | trttL2Pointer a => exact trDescend_mem hs (key .trL2 _ h)
  | _ => simp [pointerView, trPointerView] at hp

/-! ## Halts -/

/-- In the course of a request nothing has changed that a halt leaves alone, or its cycle is spurious and will not halt; a request that has
ended halted has had no effect. -/
def CleanSoFar (q : Request) (s t : State) : Prop :=
  (∃ wk, t.walk = some wk ∧ wk.req = q ∧ (wk.spurious = false → Looks q.ctx s t)) ∨
    t.walk = none ∧ ∀ k x, t.result = .halted k x → k = q.id ∧ halts s q x (.next t)

/-- A halt on top of looking things up has had no effect (60_exceptions R272). -/
theorem Looks.halts (h : Looks q.ctx s t) (x : Halted) (hx : x.req = q) :
    halts s q x.cause
      (.next { t with walk := none, halted := assocPut t.halted q.id x, result := .halted q.id x.cause }) := by
  obtain ⟨hhalted, hreset, hirq⟩ := h.pending
  refine ⟨_, rfl, rfl, rfl, ⟨x, assocGet_put_same _ _ _, hx, rfl⟩, fun k hk => ?_, h.sameMemory, h.sameRegisters, hreset, hirq,
    h.nullcnt⟩
  rw [← hhalted]
  exact assocGet_put_other _ _ (Ne.symm hk)

theorem endSpurious_result (wk : Walk) (s : State) : ∃ d, (endSpurious wk s).result = .nonRecoverable wk.req.id d := ⟨_, rfl⟩

/-- An end in which the result is not a halt. -/
theorem CleanSoFar.ended (hw : t.walk = none) (hr : ∀ k x, t.result ≠ .halted k x) : CleanSoFar q s t :=
  .inr ⟨hw, fun k x h => absurd h (hr k x)⟩

theorem Moves.cleanSoFar {u : State} (h : Moves q b st may t u) (hl : b = false → Looks q.ctx s t) : CleanSoFar q s u := by
  cases h with
  | goOn wk' h' hq hb => exact .inl ⟨wk', rfl, hq, fun hs => ((hl (hb.symm.trans hs)).trans h').trans (.setWalk ..)⟩
  | spuriousEnd wk' v irq h' hq hb => exact .ended rfl (by rintro _ _ ⟨⟩)
  | spuriousStore wk' sp pa v h' hq hb => exact .ended rfl (by rintro _ _ ⟨⟩)
  | completed r v irq h' hb hr => exact .ended rfl hr
  | stored sp pa v h' hb hv => exact .ended rfl (by rintro _ _ ⟨⟩)
  | halted x h' hb hx => exact .inr ⟨rfl, by rintro _ _ ⟨⟩; exact ⟨rfl, ((hl hb).trans h').halts x hx⟩⟩
  | nonRecoverable wk' h' hq hv =>
    unfold Machine.nonRecoverable
    split
    · exact .ended rfl (by rintro _ _ ⟨⟩)
    · exact .inl ⟨_, rfl, hq, by rintro ⟨⟩⟩

theorem runWalk_cleanSoFar (k : Nat) (h : CleanSoFar q s t) (hu : runWalk k t = .next u) : CleanSoFar q s u := by
  induction k generalizing t with
  | zero => cases hu; exact h
  | succ k ih =>
    unfold runWalk at hu
    split at hu
    · cases hu; exact h
    · next wk hwk =>
      split at hu
      · next t' ht' =>
        refine ih ?_ hu
        obtain ⟨wk', hwk', rfl, hl⟩ | ⟨hnone, -⟩ := h
        · obtain rfl : wk = wk' := Option.some.inj (hwk.symm.trans hwk')
          obtain ⟨_, _, -, hm⟩ := walkStep_moves hwk
          exact (hm t' ht').cleanSoFar hl
        · rw [hwk] at hnone; cases hnone
      · cases hu
      · cases hu

/-- A request that ends halted has had no effect. -/
theorem runRequest_halted {k : Nat} {x : Cause} (h : runRequest q s = .next t) (hr : t.result = .halted k x) :
    k = q.id ∧ halts s q x (.next t) := by
  have hclean : CleanSoFar q s t := by
    unfold runRequest at h
    split at h
    · cases h
    · unfold finish at h
      split at h
      · next t' ht' =>
        exact runWalk_cleanSoFar _ ((beginTranslate_moves (st := .data) (.refl s q.ctx) t' ht').cleanSoFar fun _ => .refl s q.ctx) h
      · cases h
      · cases h
  obtain ⟨wk, hwk, -, -⟩ | ⟨-, hhalt⟩ := hclean
  · rw [(runRequest_concludes h).1] at hwk; cases hwk
  · exact hhalt k x hr

/-! ## Steps of the machine -/

theorem positions_decodeEntry (p : Params) (pos : Pos) (w : Word64) : positions (decodeEntry p pos w) ≠ [] := by
  have hor : ∀ {P : Prop} [Decidable P] {i j : Instr}, positions i ≠ [] → positions j ≠ [] → positions (if P then i else j) ≠ [] := by
    intro P _ i j hi hj
    split
    · exact hi
    · exact hj
  have h3 : positions (decodeTrL3 w) ≠ [] := by unfold decodeTrL3; split <;> simp [positions]
  have h2 : positions (decodeTrL2 w) ≠ [] := by unfold decodeTrL2; split <;> simp [positions]
  cases pos with
  | trL3 => exact h3
  | trL2 => exact h2
  | trL1 => simp [decodeEntry, positions]
  | pdp => exact hor (hor (by simp [positions]) (by simp [positions])) (by simp [positions])
  | pd => exact hor (hor (by simp [positions]) (by simp [positions])) (by simp [positions])
  | _ => exact hor (by simp [positions]) (by simp [positions])

/-- With a walk open a step of the machine is a step of the walker. -/
theorem step_eq_walkStep (h : s.walk = some wk) : step s = walkStep wk s := by
  simp only [step, h]
  exact exec_eq_execEntry (positions_decodeEntry _ _ _)

theorem runsTo_succ {k : Nat} (hstep : step s = .next t) (h : runsTo k t u) : runsTo (k + 1) s u := by
  have hcore : Sys2Proof.core.step s = .next t := hstep
  simp only [runsTo, Host.Core.run, hcore]
  exact h

/-- What a walk is after at most `k` entries, the machine is after at most `k` steps. -/
theorem runsTo_of_runWalk {k : Nat} (h : runWalk k s = .next t) : ∃ j, j ≤ k ∧ runsTo j s t := by
  induction k generalizing s with
  | zero => cases h; exact ⟨0, Nat.le_refl 0, rfl⟩
  | succ k ih =>
    unfold runWalk at h
    split at h
    · cases h; exact ⟨0, Nat.zero_le _, rfl⟩
    · next wk hwk =>
      split at h
      · next s' hs' =>
        obtain ⟨j, hj, hrun⟩ := ih h
        exact ⟨j + 1, Nat.succ_le_succ hj, runsTo_succ ((step_eq_walkStep hwk).trans hs') hrun⟩
      · cases h
      · cases h

end Walks

/-- Settles O9: of a READ no elementary change stores, an entry frees memory only by a fault in a table read, and a pointer entry only
moves the walk. -/
theorem translationLeavesMemoryUnchanged : Obligations.TranslationLeavesMemoryUnchanged := by
  refine ⟨?_, ?_, ?_⟩
  · intro e c gva n s t h hr
    cases exec_answers h with
    | entry _ hi => exact absurd rfl hi
    | read hc => exact hc.sameMemory_of_read rfl hr
  · intro i s t wk hi hwk hv h hst
    rw [exec_eq_execEntry hi] at h
    exact (execEntry_moves i hwk (.refl s _) t h).sameMemory_of_read hv hst
  · intro i s t wk hwk hs hp h
    obtain ⟨hmem, hepoch⟩ := exec_pointer_mem hwk hs hp h
    exact sameMemory_of_mem hmem hepoch

/-- Settles O17: along the walk of a request that may still halt only caches and free values change, and the halt adds the record. -/
theorem haltedRequestHasHadNoEffect : Obligations.HaltedRequestHasHadNoEffect := by
  intro i k x s t hi h hr
  obtain ⟨e, c, g, n, rfl⟩ | ⟨e, c, g, n, v, rfl⟩ := hi
  all_goals
    obtain ⟨hk, t', ht', -, -, ⟨y, hy, -, hcause⟩, hothers, hframe⟩ := runRequest_halted h hr
    cases ht'
    subst hk
    exact ⟨rfl, ⟨y, hy, hcause⟩, hothers, hframe⟩

/-- Settles O18: a request has concluded when its operation ends. -/
theorem requestsEndWithinTheirOperation : Obligations.RequestsEndWithinTheirOperation :=
  fun _ _ _ hi h => (exec_request_concludes hi h).1

/-- Settles O19: each entry of the run is a step of the machine. -/
theorem steppingAWalkIsRunningIt : Obligations.SteppingAWalkIsRunningIt := fun _ _ h _ => runsTo_of_runWalk h

end Sys2Proof.Machine

/-! # Addresses

The machine adds offsets and indices to bases whose low bits are clear; the rules put the same bits side by side (30_encoding R125, R126,
R131). -/

namespace Sys2Proof.Machine

section Addresses

variable {m n : Nat}

theorem toNat_append_eq (x : BitVec m) (y : BitVec n) : (x ++ y).toNat = x.toNat * 2 ^ n + y.toNat := by
  rw [BitVec.toNat_append, ← Nat.shiftLeft_add_eq_or_of_lt y.isLt, Nat.shiftLeft_eq]

/-- The page offset is the address below the page size (30_encoding R126). -/
theorem toNat_pageOff (z : PageSize) (va : Word64) : (pageOff z va).toNat = va.toNat % 2 ^ z.offBits := by
  have hoff : z.offBits ≤ 64 := by cases z <;> decide
  have hbase : (pageBase z va).toNat = va.toNat / 2 ^ z.offBits * 2 ^ z.offBits := by
    have hle : va.toNat / 2 ^ z.offBits * 2 ^ z.offBits < 2 ^ 64 := (Nat.div_mul_le_self _ _).trans_lt va.isLt
    simp only [pageBase, BitVec.toNat_shiftLeft, BitVec.toNat_ushiftRight, Nat.shiftRight_eq_div_pow, Nat.shiftLeft_eq,
      Nat.mod_eq_of_lt hle]
  have hsum := Nat.div_add_mod' va.toNat (2 ^ z.offBits)
  rw [pageOff, BitVec.toNat_sub_of_le (by rw [BitVec.le_def, hbase]; exact Nat.div_mul_le_self _ _), hbase]
  omega

/-- Page base and page offset side by side are their sum. -/
theorem base_add_pageOff (z : PageSize) {k : Nat} (hk : z.offBits = k) (a : BitVec m) (hm : m + k ≤ 64) (va : Word64) :
    (a ++ (0 : BitVec k)).setWidth 64 + pageOff z va = (a ++ va.extractLsb' 0 k).setWidth 64 := by
  subst hk
  have hpow : 2 ^ m * 2 ^ z.offBits ≤ 2 ^ 64 := by
    rw [← Nat.pow_add]; exact Nat.pow_le_pow_right (by decide) hm
  have ha : (a.toNat + 1) * 2 ^ z.offBits ≤ 2 ^ 64 := (Nat.mul_le_mul_right _ a.isLt).trans hpow
  have hoff := Nat.mod_lt va.toNat (Nat.two_pow_pos z.offBits)
  rw [Nat.add_mul, Nat.one_mul] at ha
  apply BitVec.eq_of_toNat_eq
  simp only [BitVec.toNat_add, BitVec.toNat_setWidth, toNat_append_eq, toNat_pageOff, BitVec.extractLsb'_toNat, Nat.shiftRight_zero,
    BitVec.ofNat_eq_ofNat, BitVec.toNat_ofNat, Nat.zero_mod, Nat.add_zero]
  rw [Nat.mod_eq_of_lt (a := a.toNat * 2 ^ z.offBits) (by omega)]

/-- base + 8 * index side by side (30_encoding R125). -/
theorem toNat_entry8 (base : Word64) (k : BitVec 9) (h : base.toNat + 4096 ≤ 2 ^ 64) :
    (entry8 base k).toNat = base.toNat + 8 * k.toNat := by
  have hk := k.isLt
  simp only [entry8, BitVec.toNat_add, BitVec.toNat_mul, BitVec.toNat_setWidth, BitVec.ofNat_eq_ofNat, BitVec.toNat_ofNat]
  omega

theorem entry8_append (a : BitVec m) (k : BitVec 9) (hm : m ≤ 52) :
    entry8 ((a ++ (0 : BitVec 12)).setWidth 64) k = (a ++ k ++ (0 : BitVec 3)).setWidth 64 := by
  have ha := a.isLt
  have hpow : 2 ^ m ≤ 2 ^ 52 := Nat.pow_le_pow_right (by decide) hm
  have hk := k.isLt
  apply BitVec.eq_of_toNat_eq
  simp only [entry8, BitVec.toNat_add, BitVec.toNat_mul, BitVec.toNat_setWidth, toNat_append_eq, BitVec.ofNat_eq_ofNat, BitVec.toNat_ofNat]
  omega

theorem entry4_append (a : BitVec m) (k : BitVec 10) (hm : m ≤ 52) :
    entry4 ((a ++ (0 : BitVec 12)).setWidth 64) k = (a ++ k ++ (0 : BitVec 2)).setWidth 64 := by
  have ha := a.isLt
  have hpow : 2 ^ m ≤ 2 ^ 52 := Nat.pow_le_pow_right (by decide) hm
  have hk := k.isLt
  apply BitVec.eq_of_toNat_eq
  simp only [entry4, BitVec.toNat_add, BitVec.toNat_mul, BitVec.toNat_setWidth, toNat_append_eq, BitVec.ofNat_eq_ofNat, BitVec.toNat_ofNat]
  omega

theorem ggttEntry_eq_shiftLeft (base : Word64) (g : BitVec 20) : ggttEntry base g = base + (g.setWidth 64 <<< 3) := by
  apply BitVec.eq_of_toNat_eq
  simp only [ggttEntry, BitVec.toNat_add, BitVec.toNat_mul, BitVec.toNat_setWidth, BitVec.toNat_shiftLeft, Nat.shiftLeft_eq,
    BitVec.ofNat_eq_ofNat, BitVec.toNat_ofNat]

end Addresses

/-- Settles O5: a base with its low bits clear takes the index into them. -/
theorem entryAddressIsAConcatenation : Obligations.EntryAddressIsAConcatenation := by
  intro table k k1 base g
  refine ⟨?_, ?_, ggttEntry_eq_shiftLeft base g⟩
  · simpa using entry8_append table k (Nat.le_refl 52)
  · simpa using entry4_append table k1 (Nat.le_refl 52)

end Sys2Proof.Machine

/-! # The end of a request, by the rules

The operations that end a request do what 40_request_pipeline R152 and R153 say of a translation's outcome (`served`), from any state that
differs from the request's first one by looking things up; each entry of the GGTT and the PPGTT is one of them, or a descent. -/

namespace Sys2Proof.Machine

section Served

variable {s t : State} {q : Request} {i : Instr} {wk : Walk} {sp : Space} {pa : Word64} {who : Agent} {n v : Nat}

/-! ## Stores -/

theorem holds_physWrite (s : State) (who : Agent) (sp : Space) (pa : Word64) (n v : Nat) :
    holds (s.physWrite who sp pa (leBytes n v)) sp pa.toNat n v := fun i hi =>
  byteAt_putBytes_inside _ _ _ _ _ _ _ (getElem?_leBytes n v i hi)

theorem sameMemoryOutside_physWrite (s : State) (who : Agent) (sp : Space) (pa : Word64) (n v : Nat) :
    sameMemoryOutside s (s.physWrite who sp pa (leBytes n v)) sp pa.toNat n := fun sp' b h =>
  byteAt_putBytes_outside _ _ _ _ _ _ _ (by rwa [length_leBytes])

theorem Looks.physRead (h : Looks q.ctx s t) (sp : Space) (pa : Word64) (n : Nat) : t.physRead sp pa n = s.physRead sp pa n := by
  rw [State.physRead, State.physRead, h.mem, h.epoch]

theorem Looks.unchanged (h : Looks q.ctx s t) : unchanged s t := h.toTouchesOnlyCaches.unchanged h.nullcnt

/-! ## The walk's own refusals and completions -/

theorem refuseWalk_of_not_spurious (hs : wk.spurious = false) (why : Refusal) (s : State) : refuseWalk wk why s = .refused why := by
  rw [refuseWalk, hs]
  rfl

theorem complete_of_not_spurious (hs : wk.spurious = false) (r : Result) (s : State) :
    complete wk r s = .next { s with walk := none, result := r } := by
  rw [complete, hs]
  rfl

/-- The fault that the rules' outcome means for a request, if any (60_exceptions R260 to R262). -/
def Translation.fault (q : Request) : Translation → Option Cause
  | .phys _ _ w | .nullPage w => if q.value.isSome && !w then some (.writeDenied q.gva) else none
  | .notPresent l a => some (.notPresent l a)
  | .nullTile | .invalidTile | .refused _ | .unsettled => none

/-- The platform can repair the fault of the rules' outcome (60_exceptions R277 e). -/
def Repairable (s : State) (q : Request) (tr : Translation) : Prop := ∀ x, tr.fault q = some x → recoverable s.cfg x = true

theorem raiseFault_halts {x : Cause} (hs : wk.spurious = false) (hr : recoverable s.cfg x = true) (h : Looks wk.req.ctx s t) :
    halts s wk.req x (raiseFault wk x t) := by
  have hraise : raiseFault wk x t = .next { t with
      walk := none
      halted := assocPut t.halted wk.req.id { req := wk.req, cause := x, stage := wk.stage }
      result := .halted wk.req.id x } := by
    rw [raiseFault, if_pos (by rw [hs, h.cfg, hr]; rfl)]
  rw [hraise]
  exact h.halts { req := wk.req, cause := x, stage := wk.stage } rfl

/-! ## The data access -/

/-- The data access at a physical address serves the request as R152 and R153 say; what a READ gives is the present value inside the
quiescence premise (20_memory R95 b). -/
theorem accessPhys_served {w : Bool} (hs : wk.spurious = false) (hb : wk.req.value = none → s.broken wk.req.ctx = false)
    (hr : Repairable s wk.req (.phys sp pa w)) (h : Looks wk.req.ctx s t) :
    served s wk.req (accessPhys wk sp pa w t) (.phys sp pa w) := by
  unfold accessPhys served
  cases hv : wk.req.value with
  | none =>
    simp only [readData_quiet t wk.req.ctx _ _ _ _ (h.broken.trans (hb hv)), h.physRead, complete_of_not_spurious hs]
    exact ⟨_, rfl, rfl, rfl, (h.trans (.setWalk ..)).unchanged⟩
  | some v =>
    dsimp only
    cases w with
    | false =>
      simp only [Bool.not_false, if_true]
      exact raiseFault_halts hs (hr _ (by simp [Translation.fault, hv])) h
    | true =>
      simp only [Bool.not_true, Bool.false_eq_true, if_false, reduceCtorEq, h.cfg]
      split
      · exact refuseWalk_of_not_spurious hs _ t
      · rw [complete_of_not_spurious hs]
        refine ⟨_, rfl, rfl, rfl, holds_physWrite t (.engine wk.req.agent) sp pa wk.req.n v, ?_, ?_, h.pending, h.nullcnt⟩
        · intro sp' b hout
          exact (sameMemoryOutside_physWrite t (.engine wk.req.agent) sp pa wk.req.n v sp' b hout).trans (h.sameMemory sp' b)
        · exact sameRegisters_trans h.sameRegisters (sameRegisters_of_ctx rfl rfl rfl fun c => ctx_congr rfl rfl c)

/-- The data access at a Null page serves the request as R152, R153 and 92 D14 say. -/
theorem accessNullPage_served {w : Bool} (hq : wk.req = q) (hs : wk.spurious = false) (hr : Repairable s q (.nullPage w))
    (h : Looks q.ctx s t) : served s q (accessNullPage wk w t) (.nullPage w) := by
  subst hq
  simp only [accessNullPage, served]
  by_cases hdenied : wk.req.value.isSome = true ∧ w = false
  · obtain ⟨hv, rfl⟩ := hdenied
    rw [if_pos ⟨hv, rfl⟩, if_pos (by simp [hv])]
    exact raiseFault_halts hs (hr _ (by simp [Translation.fault, hv])) h
  · rw [if_neg hdenied, if_neg (by simpa using hdenied), complete_of_not_spurious hs]
    exact ⟨_, rfl, rfl, nullCompletion_eq_zeroCompletion wk, (h.trans (.setWalk ..)).unchanged⟩

theorem slAs_congr (h : t.cfg = s.cfg) (nested : Bool) (c : CtxId) (a : Word64) : t.slAs nested c a = s.slAs nested c a := by
  rw [State.slAs, State.slAs, h]

/-- A finished GGTT translation serves the request as the translation says. -/
theorem ggttDone_served {out : Mapping} {nested : Bool} {z : PageSize} {va : Word64} (hq : wk.req = q) (hva : wk.va = va)
    (hs : wk.spurious = false) (hb : q.value = none → s.broken q.ctx = false)
    (hr : Repairable s q (out.at s q.ctx true nested z va)) (h : Looks q.ctx s t) :
    served s q (ggttDone wk out t) (out.at s q.ctx true nested z va) := by
  subst hq hva
  cases out with
  | page sp base mt w => exact accessPhys_served hs hb hr h
  | null w => exact accessNullPage_served rfl hs hr h

/-- A finished PPGTT translation of the request's own address serves the request as the translation says. -/
theorem ppgttDone_served {out : Mapping} {nested : Bool} {z : PageSize} {deps : List Dep} {va : Word64} (hq : wk.req = q)
    (hva : wk.va = va) (hs : wk.spurious = false) (hst : wk.stage = .data) (hb : q.value = none → s.broken q.ctx = false)
    (hr : Repairable s q (out.at s q.ctx false nested z va)) (h : Looks q.ctx s t) :
    served s q (ppgttDone wk z out nested deps t) (out.at s q.ctx false nested z va) := by
  subst hq hva
  cases out with
  | page sp base mt w =>
    simp only [Mapping.at, Bool.false_eq_true, if_false] at hr ⊢
    simp only [ppgttDone, slAs_congr h.cfg, hst]
    cases hsl : s.slAs nested wk.req.ctx (pageAddr z base wk.va) with
    | none => exact refuseWalk_of_not_spurious hs _ t
    | some pa =>
      rw [hsl] at hr
      exact accessPhys_served hs hb hr h
  | null w =>
    simp only [ppgttDone, hst]
    exact accessNullPage_served rfl hs hr h

end Served

end Sys2Proof.Machine

/-! # Entries of the GGTT and the PPGTT

A leaf entry finishes a translation, a pointer entry moves the walk one level down, and an entry that is not present faults (42_ggtt R201,
43_ppgtt R218, 60_exceptions R261). -/

namespace Sys2Proof.Machine

section Entries

variable {s t : State} {q : Request} {i : Instr} {wk : Walk} {pos next : Pos} {gpa a : Word64} {sp : Space} {f : LeafBits} {l : TrLevel}

/-! ## What executing an entry at its position is -/

theorem exec_entry_sameOtherContexts (hwalk : s.walk = some wk) (hi : positions i ≠ []) (h : exec i s = .next t) :
    sameOtherContexts s t wk.req.ctx := by
  rw [exec_eq_execEntry hi] at h
  exact (execEntry_changes i hwalk rfl .refl t h).sameOtherContexts

/-- A leaf entry of any page size is a leaf of the walk; the page's base and the offset give the address of 30_encoding R126. -/
theorem exec_of_leafView (hview : leafView s.cfg wk.va i = some (pos, gpa, sp, f)) (hwalk : s.walk = some wk) (hpos : wk.pos = pos) :
    positions i ≠ [] ∧ ∃ z base mt, exec i s = leaf wk z base sp mt f s ∧ pageAddr z base wk.va = gpa := by
  have hat : s.walkAt pos = some wk := walkAt_eq.2 ⟨hwalk, hpos⟩
  cases i with
  | pdpe1gb x lm g =>
    cases hview
    exact ⟨by simp [positions], .g1, _, _, by simp only [exec, execPdpe1gb, hat]; rfl, base_add_pageOff .g1 rfl x (by decide) _⟩
  | pde2mb x lm g =>
    cases hview
    exact ⟨by simp [positions], .m2, _, _, by simp only [exec, execPde2mb, hat]; rfl, base_add_pageOff .m2 rfl x (by decide) _⟩
  | pte64kb x lm g =>
    cases hview
    exact ⟨by simp [positions], .k64, _, _, by simp only [exec, execPte64kb, hat]; rfl, base_add_pageOff .k64 rfl x (by decide) _⟩
  | pte4kb x g =>
    cases hview
    exact ⟨by simp [positions], .k4, _, _, by simp only [exec, execPte4kb, hat]; rfl, base_add_pageOff .k4 rfl x (by decide) _⟩
  | _ => cases hview

theorem entry8_frameBase (x : BitVec 34) (k : BitVec 9) : entry8 (frameBase x) k = (x ++ k ++ (0 : BitVec 3)).setWidth 64 :=
  entry8_append x k (by decide)

/-- A pointer entry is a descent of the walk to the address of 30_encoding R125. -/
theorem exec_of_pointerView {rw : Bool} (hview : pointerView wk.va i = some (pos, next, gpa, rw)) (hwalk : s.walk = some wk)
    (hpos : wk.pos = pos) : ∃ base k, exec i s = descend wk next base k rw s ∧ entry8 base k = gpa := by
  have hat : s.walkAt pos = some wk := walkAt_eq.2 ⟨hwalk, hpos⟩
  cases i with
  | pml4e x b => cases hview; exact ⟨_, _, by simp only [exec, execPml4e, hat]; rfl, entry8_frameBase x _⟩
  | pdpePd x b => cases hview; exact ⟨_, _, by simp only [exec, execPdpePd, hat]; rfl, entry8_frameBase x _⟩
  | pdePt x ind b =>
    cases ind with
    | false => cases hview; exact ⟨_, _, by simp only [exec, execPdePt, hat]; rfl, entry8_frameBase x _⟩
    | true =>
      cases hview
      refine ⟨_, _, by simp only [exec, execPdePt, hat]; rfl, (entry8_frameBase x _).trans ?_⟩
      apply BitVec.eq_of_toNat_eq
      simp only [idx1k64, BitVec.toNat_setWidth, toNat_append_eq, BitVec.ofNat_eq_ofNat, BitVec.toNat_ofNat]
      omega
  | _ => cases hview

/-- A TR-TT pointer entry is a descent of the TR-TT walk to an address of 48 bits (41_trtt R172 to R174). -/
theorem exec_of_trPointerView {bit47 : Bool} (hview : trPointerView wk.req.gva i = some (pos, l, a, bit47)) (hwalk : s.walk = some wk)
    (hpos : wk.pos = pos) : exec i s = trDescend wk bit47 l a s ∧ a.toNat < 2 ^ 48 := by
  have hat : s.walkAt pos = some wk := walkAt_eq.2 ⟨hwalk, hpos⟩
  cases i with
  | trttL3Pointer x =>
    cases hview
    have haddr : entry8 (trTableBase x) (trIdx2 wk.req.gva) = (x ++ wk.req.gva.extractLsb' 26 9 ++ (0 : BitVec 3)).setWidth 64 :=
      entry8_append x _ (by decide)
    refine ⟨by simp only [exec, execTrttL3Pointer, hat, haddr], ?_⟩
    simp only [BitVec.toNat_setWidth]
    omega
  | trttL2Pointer x =>
    cases hview
    have haddr : entry4 (trTableBase x) (trIdx1 wk.req.gva) = (x ++ wk.req.gva.extractLsb' 16 10 ++ (0 : BitVec 2)).setWidth 64 :=
      entry4_append x _ (by decide)
    refine ⟨by simp only [exec, execTrttL2Pointer, hat, haddr], ?_⟩
    simp only [BitVec.toNat_setWidth]
    omega
  | _ => cases hview

theorem va48_of_lt (h : a.toNat < 2 ^ 48) : va48 a = a := by
  apply BitVec.eq_of_toNat_eq
  simp only [va48, BitVec.toNat_setWidth, BitVec.extractLsb'_toNat, Nat.shiftRight_zero]
  omega

/-! ## Leaf entries -/

/-- What a leaf entry says of the address in its page: a Null page, or the second level's address (43_ppgtt R218 Leaf). -/
def leafOutcome (s : State) (c : CtxId) (gpa : Word64) (sp : Space) (null w : Bool) : Translation :=
  if null then .nullPage w
  else match s.sl c gpa with
    | none => .refused .nestedTranslationUnmodelled
    | some pa => .phys sp pa w

theorem leafOutcome_null (s : State) (c : CtxId) (gpa : Word64) (sp : Space) (w : Bool) : leafOutcome s c gpa sp true w = .nullPage w := rfl

theorem leafOutcome_page {c : CtxId} {pa : Word64} (h : s.sl c gpa = some pa) (sp : Space) (w : Bool) :
    leafOutcome s c gpa sp false w = .phys sp pa w := by
  simp [leafOutcome, h]

/-- The mapping that a leaf entry is cached as (20_memory R99). -/
def leafMapping (base : Word64) (sp : Space) (mt : BitVec 3) (null w : Bool) : Mapping :=
  if null then .null w else .page sp base mt w

/-- It says of an address in the page what the leaf entry says. -/
theorem leafMapping_at (s : State) (c : CtxId) (z : PageSize) (base va : Word64) (sp : Space) (mt : BitVec 3) (null w : Bool) :
    (leafMapping base sp mt null w).at s c false (s.ctx c).neste z va = leafOutcome s c (pageAddr z base va) sp null w := by
  cases null <;> rfl

/-- A leaf finishes the translation, which the TLB may hold from then on. -/
theorem leaf_eq (wk : Walk) (z : PageSize) (base : Word64) (sp : Space) (mt : BitVec 3) (f : LeafBits) (s : State) :
    leaf wk z base sp mt f s =
      ppgttDone wk.noted z (leafMapping base sp mt f.null (wk.w && f.rw)) (s.ctx wk.req.ctx).neste wk.noted.deps
        (s.fillTlb wk.req.ctx
          { global := false, size := z, vbase := pageBase z wk.va, out := leafMapping base sp mt f.null (wk.w && f.rw),
            nested := (s.ctx wk.req.ctx).neste, deps := wk.noted.deps }) := rfl

theorem leaf_eq_ppgttDone (wk : Walk) (z : PageSize) (base : Word64) (sp : Space) (mt : BitVec 3) (f : LeafBits) (s : State) :
    ∃ x, leaf wk z base sp mt f s = ppgttDone wk.noted z (leafMapping base sp mt f.null (wk.w && f.rw)) (s.ctx wk.req.ctx).neste
      wk.noted.deps (s.fillTlb wk.req.ctx x) := ⟨_, leaf_eq ..⟩

/-- In a table read a page sends the walker to the table's entry in it (41_trtt R176). -/
theorem ppgttDone_of_table {z : PageSize} {base pa : Word64} {mt : BitVec 3} {w nested : Bool} {deps : List Dep}
    (hst : wk.stage = .table l) (hsl : s.slAs nested wk.req.ctx (pageAddr z base wk.va) = some pa) :
    ppgttDone wk z (.page sp base mt w) nested deps s =
      .next { s with walk := some { wk with pos := l.pos, space := sp, pa := pa, trDeps := deps ++ wk.trDeps } } := by
  simp only [ppgttDone, hsl, hst]

/-- A write without permission faults whether its page is Null or not, and before the GGTT is looked at (60_exceptions R280, 92 D14). -/
theorem ppgttDone_denied {z : PageSize} {base : Word64} {mt : BitVec 3} {null nested : Bool} {deps : List Dep} (hst : wk.stage = .data)
    (hv : wk.req.value.isSome = true) (hpage : null = true ∨ (s.slAs nested wk.req.ctx (pageAddr z base wk.va)).isSome = true) :
    ppgttDone wk z (leafMapping base sp mt null false) nested deps s = raiseFault wk (.writeDenied wk.req.gva) s := by
  cases null with
  | true => simp [leafMapping, ppgttDone, hst, accessNullPage, hv]
  | false =>
    obtain ⟨pa, hpa⟩ := Option.isSome_iff_exists.1 (hpage.resolve_left (by decide))
    obtain ⟨v, hv⟩ := Option.isSome_iff_exists.1 hv
    simp [leafMapping, ppgttDone, hst, accessPhys, hv, hpa]

theorem leaf_served {z : PageSize} {base : Word64} {mt : BitVec 3} (hs : wk.spurious = false) (hst : wk.stage = .data)
    (hb : wk.req.value = none → s.broken wk.req.ctx = false)
    (hr : Repairable s wk.req (leafOutcome s wk.req.ctx (pageAddr z base wk.va) sp f.null (wk.w && f.rw))) :
    served s wk.req (leaf wk z base sp mt f s) (leafOutcome s wk.req.ctx (pageAddr z base wk.va) sp f.null (wk.w && f.rw)) := by
  rw [← leafMapping_at (mt := mt)] at hr ⊢
  exact ppgttDone_served (noted_req wk) (noted_va wk) ((noted_spurious wk).trans hs) ((noted_stage wk).trans hst) hb hr (.fillTlb ..)

theorem exec_leaf_served (hview : leafView s.cfg wk.va i = some (pos, gpa, sp, f)) (hread : reading s pos wk) (hst : wk.stage = .data)
    (hb : wk.req.value = none → s.broken wk.req.ctx = false)
    (hr : Repairable s wk.req (leafOutcome s wk.req.ctx gpa sp f.null (wk.w && f.rw))) :
    served s wk.req (exec i s) (leafOutcome s wk.req.ctx gpa sp f.null (wk.w && f.rw)) := by
  obtain ⟨hwalk, hpos, hs⟩ := hread
  obtain ⟨-, z, base, mt, hexec, rfl⟩ := exec_of_leafView hview hwalk hpos
  rw [hexec]
  exact leaf_served hs hst hb hr

end Entries

/-- Settles O33: the descent reads the second level at the next entry's address and moves the walk there. -/
theorem pointerEntryGoesOneLevelDown : Obligations.PointerEntryGoesOneLevelDown := by
  intro s wk i pos next gpa rw hview ⟨hwalk, hpos, hs⟩
  obtain ⟨base, k, hexec, rfl⟩ := exec_of_pointerView hview hwalk hpos
  rw [hexec]
  constructor
  · intro pa hsl
    have hgo : descend wk next base k rw s =
        .next { s with walk := some { wk.noted with pos := next, space := .system, pa := pa, w := wk.w && rw } } := by
      simp only [descend, hsl]
    exact ⟨_, _, hgo, rfl, rfl, rfl, rfl, rfl, noted_va wk, noted_req wk, noted_stage wk, (noted_spurious wk).trans hs,
      (Looks.setWalk s wk.req.ctx _ s.result s.draws s.nextReq s.schedule).unchanged, fun c => ctx_congr rfl rfl c⟩
  · intro hsl
    simp only [descend, hsl, refuseWalk_of_not_spurious hs]

/-- Settles O34: the leaf's outcome is an address, and the data access there serves the READ. -/
theorem leafEntryServesRead : Obligations.LeafEntryServesRead := by
  intro s wk i pos gpa pa sp f hview hread hst hv hnull hsl hb
  have ⟨hwalk, hpos, _⟩ := hread
  obtain ⟨hi, -⟩ := exec_of_leafView hview hwalk hpos
  have hserved := exec_leaf_served hview hread hst (fun _ => hb) (by
    rw [hnull, leafOutcome_page hsl]
    simp [Repairable, Translation.fault, hv])
  rw [hnull, leafOutcome_page hsl] at hserved
  simp only [served, hv] at hserved
  obtain ⟨t, hexec, hnone, hresult, hframe⟩ := hserved
  exact ⟨t, hexec, hnone, hresult, hframe, exec_entry_sameOtherContexts hwalk hi hexec⟩

/-- Settles O35: as O34; the access is the store, the refusal of a target in the GGTT, or the halt on a denied write. -/
theorem leafEntryServesWrite : Obligations.LeafEntryServesWrite := by
  intro s wk i pos gpa pa sp f v hview hread hst hv hnull hsl
  have hserved (hr : Repairable s wk.req (.phys sp pa (wk.w && f.rw))) :
      served s wk.req (exec i s) (.phys sp pa (wk.w && f.rw)) := by
    have hleaf := exec_leaf_served hview hread hst (by rw [hv]; rintro ⟨⟩)
    rw [hnull, leafOutcome_page hsl] at hleaf
    exact hleaf hr
  refine ⟨fun hw hrw hout => ?_, fun hw hrw hin => ?_, fun hdenied hrec => ?_⟩
  · simpa [served, hv, hw, hrw, hout] using hserved (by simp [Repairable, Translation.fault, hw, hrw])
  · simpa [served, hv, hw, hrw, hin] using hserved (by simp [Repairable, Translation.fault, hw, hrw])
  · rw [hdenied] at hserved
    simpa [served, hv] using hserved (by simpa [Repairable, Translation.fault, hv] using hrec)

/-- Settles O36: the leaf's outcome is a Null page, and the access to it serves the request. -/
theorem nullLeafCompletesWithoutMemory : Obligations.NullLeafCompletesWithoutMemory := by
  intro s wk i pos gpa sp f hview hread hst hnull
  have ⟨hwalk, hpos, hs⟩ := hread
  obtain ⟨hi, z, base, mt, hexec, rfl⟩ := exec_of_leafView hview hwalk hpos
  have hserved (hr : Repairable s wk.req (.nullPage (wk.w && f.rw))) : served s wk.req (exec i s) (.nullPage (wk.w && f.rw)) := by
    have haccess : exec i s = accessNullPage wk.noted (wk.w && f.rw) (s.fillTlb wk.req.ctx
        { global := false, size := z, vbase := pageBase z wk.va, out := .null (wk.w && f.rw), nested := (s.ctx wk.req.ctx).neste,
          deps := wk.noted.deps }) := by
      simp only [hexec, leaf_eq, hnull, leafMapping, if_true, ppgttDone, noted_stage, hst]
    rw [haccess]
    exact accessNullPage_served (noted_req wk) ((noted_spurious wk).trans hs) hr (.fillTlb ..)
  constructor
  · intro hok
    have hserved := hserved (by
      obtain hv | hw := hok
      · simp [Repairable, Translation.fault, hv]
      · simp [Repairable, Translation.fault, hw])
    have hnot : ¬ (wk.req.value.isSome = true ∧ (wk.w && f.rw) = false) := by
      obtain hv | hw := hok
      · simp [hv]
      · simp [hw]
    simp only [served, if_neg hnot] at hserved
    obtain ⟨t, hexec, hnone, hresult, hframe⟩ := hserved
    exact ⟨t, hexec, hnone, hresult, hframe, exec_entry_sameOtherContexts hwalk hi hexec⟩
  · intro hv hdenied hrec
    rw [hdenied] at hserved
    simpa only [served, hv, and_self, if_true] using hserved (by simpa [Repairable, Translation.fault, hv] using hrec)

/-- Settles O37: in a table read the leaf's page only moves the walk, to the table's entry. -/
theorem leafEntryServesATableRead : Obligations.LeafEntryServesATableRead := by
  intro s wk i pos gpa sp f l hview ⟨hwalk, hpos, hs⟩ hst
  obtain ⟨hi, z, base, mt, hexec, rfl⟩ := exec_of_leafView hview hwalk hpos
  have hspurious := (noted_spurious wk).trans hs
  refine ⟨fun pa hnull hsl => ?_, fun hnull => ?_⟩
  · obtain ⟨x, hleaf⟩ := leaf_eq_ppgttDone wk z base sp mt f s
    rw [hnull] at hleaf
    have hgo := hexec.trans (hleaf.trans (ppgttDone_of_table (wk := wk.noted) (l := l) (pa := pa) ((noted_stage wk).trans hst) (by
      rw [noted_req, noted_va, slAs_congr (fillTlb_cfg ..)]
      exact hsl)))
    exact ⟨_, _, hgo, rfl, rfl, rfl, rfl, noted_req wk, noted_regs wk, hspurious,
      ((Looks.fillTlb s wk.req.ctx x).trans (.setWalk ..)).unchanged, exec_entry_sameOtherContexts hwalk hi hgo⟩
  · simp only [hexec, leaf_eq, hnull, leafMapping, if_true, ppgttDone, noted_stage, hst, refuseWalk_of_not_spurious hspurious]

/-- Settles O32: a GGTT entry finishes the translation with its page, System memory and writable. -/
theorem ggttEntryServesTheAccess : Obligations.GgttEntryServesTheAccess := by
  intro s wk a fn ⟨hwalk, hpos, hs⟩ pa
  have hat : s.walkAt .ggtt = some wk := walkAt_eq.2 ⟨hwalk, hpos⟩
  have hpa : pageAddr .k4 (frameBase a) wk.va = pa := base_add_pageOff .k4 rfl a (by decide) _
  have hserved (hb : wk.req.value = none → s.broken wk.req.ctx = false) :
      served s wk.req (exec (.ggttPte a fn) s) (.phys .system pa true) := by
    rw [← hpa]
    simp only [exec, execGgttPte, hat]
    exact ggttDone_served (nested := false) (z := .k4) (out := .page .system (frameBase a) 0 true) (noted_req wk) (noted_va wk)
      ((noted_spurious wk).trans hs) hb (by simp [Repairable, Translation.fault, Mapping.at]) (.fillTlb ..)
  refine ⟨fun hv hb => ?_, fun v hv hout => ?_, fun v hv hin => ?_⟩
  · have hserved := hserved fun _ => hb
    simp only [served, hv] at hserved
    obtain ⟨t, hexec, hnone, hresult, hframe⟩ := hserved
    exact ⟨t, hexec, hnone, hresult, hframe, exec_entry_sameOtherContexts hwalk (by simp [positions]) hexec⟩
  · simpa [served, hv, hout] using hserved (by simp [hv])
  · simpa [served, hv, hin] using hserved (by simp [hv])

/-- Settles O38: the fault of the position's level is raised. -/
theorem notPresentEntryHaltsTheRequest : Obligations.NotPresentEntryHaltsTheRequest := by
  intro s wk pos l hpos ⟨hwalk, hwpos, hs⟩ hrec
  have hlevel : levelOf wk.pos = some l := by
    rw [hwpos]
    obtain ⟨rfl, rfl⟩ | ⟨rfl, rfl⟩ | ⟨rfl, rfl⟩ | ⟨rfl, rfl⟩ | ⟨rfl, rfl⟩ | ⟨rfl, rfl⟩ := hpos <;> rfl
  simp only [exec, execNotPresent, hwalk, hlevel]
  exact raiseFault_halts hs hrec (.refl s _)

/-- A fault that is not taken: spurious, or not to be repaired (60_exceptions R277). -/
theorem raiseFault_nonRecoverable {s : State} {wk : Walk} {x : Cause} (h : wk.spurious = true ∨ recoverable s.cfg x = false) :
    raiseFault wk x s = .next (nonRecoverable wk s) := by
  rw [raiseFault, if_neg]
  obtain h | h := h <;> simp [h]

theorem nonRecoverable_of_data {wk : Walk} (hst : wk.stage = .data) (s : State) : nonRecoverable wk s = endNonRecoverable wk s := by
  rw [nonRecoverable, hst]

/-- Settles O39: the fault is converted, which in a table read sends the walker on with an incorrect entry, and else ends the request. -/
theorem unrepairableFaultAsksForReset : Obligations.UnrepairableFaultAsksForReset := by
  constructor
  · intro s wk l hwalk hlevel hfault
    have hexec : exec .notPresent s = .next (nonRecoverable wk s) := by
      simp only [exec, execNotPresent, hwalk, hlevel, raiseFault_nonRecoverable hfault]
    have hregs : sameRegisters s (nonRecoverable wk s) := (execEntry_changes .notPresent hwalk rfl .refl _ hexec).sameRegisters
    refine ⟨_, hexec, ?_⟩
    cases hst : wk.stage with
    | data =>
      rw [nonRecoverable_of_data hst] at hregs ⊢
      refine ⟨rfl, hregs, rfl, rfl, rfl, fun _ => ⟨fun _ _ => rfl, rfl, _, rfl, ?_⟩, by rintro _ ⟨⟩⟩
      cases wk.req.value <;> rfl
    | table x =>
      simp only [nonRecoverable, hst] at hregs ⊢
      refine ⟨trivial, hregs, rfl, rfl, rfl, by rintro ⟨⟩, ?_⟩
      rintro _ ⟨⟩
      exact ⟨_, rfl, rfl, rfl, rfl⟩
  · intro s wk i pos gpa sp f hview hwalk hpos hst hv hdenied hpage hfault
    obtain ⟨hi, z, base, mt, hexec, rfl⟩ := exec_of_leafView hview hwalk hpos
    obtain ⟨x, hleaf⟩ := leaf_eq_ppgttDone wk z base sp mt f s
    have hend : exec i s = .next (endNonRecoverable wk.noted (s.fillTlb wk.req.ctx x)) := by
      have hstage := (noted_stage wk).trans hst
      rw [hexec, hleaf, hdenied, ppgttDone_denied hstage (by rw [noted_req]; exact hv), raiseFault_nonRecoverable,
        nonRecoverable_of_data hstage]
      · rw [noted_spurious, noted_req, fillTlb_cfg]
        exact hfault
      · rw [noted_req, noted_va, slAs_congr (fillTlb_cfg ..)]
        exact hpage
    have hfill := Looks.fillTlb s wk.req.ctx x
    obtain ⟨hhalted, -, hirq⟩ := hfill.pending
    refine ⟨_, hend, rfl, rfl, ?_, hfill.sameMemory, sameRegisters_trans hfill.sameRegisters ?_, hhalted, hirq, hfill.nullcnt⟩
    · obtain ⟨v, hv⟩ := Option.isSome_iff_exists.1 hv
      simp [endNonRecoverable, hv]
    · exact sameRegisters_of_ctx rfl rfl rfl fun c => ctx_congr rfl rfl c

end Sys2Proof.Machine

/-! # Entries of TR-TT

A pointer entry sends the TR-TT walk to a virtual address that the PPGTT translates first; an entry with both flags has no meaning (41_trtt
R172 to R178, R184, R189). -/

namespace Sys2Proof.Machine

section TrEntries

variable {s t : State} {c : CtxId} {wk : Walk}

theorem invalidTile_of_not_spurious (hs : wk.spurious = false) (s : State) :
    invalidTile wk s = .next { s with irqInvalidTile := true, walk := none, result := zeroCompletion wk.req } := by
  rw [invalidTile, complete_of_not_spurious hs, nullCompletion_eq_zeroCompletion]

/-- The end of a spurious cycle that a rule refuses (60_exceptions R277; log 23). -/
theorem refuseWalk_of_spurious (hs : wk.spurious = true) (why : Refusal) (s : State) :
    refuseWalk wk why s = .next (endSpurious wk s) := by
  rw [refuseWalk, hs]
  rfl

end TrEntries

/-- Settles O40: the TR-TT descent is a table read, whose address misses the TLB and begins a PPGTT walk. -/
theorem trPointerReadsTheNextTable : Obligations.TrPointerReadsTheNextTable := by
  intro s wk i pos l a bit47 hview ⟨hwalk, hpos, hs⟩ hdual
  obtain ⟨hexec, hlt⟩ := exec_of_trPointerView hview hwalk hpos
  have hread : exec i s = tableRead wk.trNoted l a s := by
    rw [hexec, trDescend, hdual]
    rfl
  have hregs : wk.trNoted.regs = wk.regs := rfl
  rw [hread]
  refine ⟨fun hout hmiss hwalkable => ?_, fun hin => ?_⟩
  · have hva : va48 a = a := va48_of_lt hlt
    obtain ⟨t, page, hbegin, hwalk', hframe, hcounter⟩ := beginPpgtt_of_tlbMisses
      (wk := { wk.trNoted with stage := .table l, va := va48 a, forced := none }) (by rw [hva]; exact hmiss) hwalkable
    refine ⟨t, _, ?_, hwalk', rfl, rfl, hva, rfl, rfl, hs, rfl, hframe.unchanged hcounter, hframe.others⟩
    simp only [tableRead, hregs, hout]
    exact hbegin
  · simp only [tableRead, hregs, hin]
    exact refuseWalk_of_not_spurious hs _ s

/-- Settles O41: the refusal stands before anything else that the entry leads to. -/
theorem dualContextRefusesBit47 : Obligations.DualContextRefusesBit47 := by
  intro s wk hdual
  refine ⟨?_, ?_, ?_⟩
  · rintro a ⟨hwalk, hpos, hs⟩ hbit
    have hat : s.walkAt .trL3 = some wk := walkAt_eq.2 ⟨hwalk, hpos⟩
    simp only [exec, execTrttL3Pointer, hat, trDescend, hdual, hbit, Bool.and_self, if_true]
    exact refuseWalk_of_not_spurious hs _ s
  · rintro a ⟨hwalk, hpos, hs⟩ hbit
    have hat : s.walkAt .trL2 = some wk := walkAt_eq.2 ⟨hwalk, hpos⟩
    simp only [exec, execTrttL2Pointer, hat, trDescend, hdual, hbit, Bool.and_self, if_true]
    exact refuseWalk_of_not_spurious hs _ s
  · rintro e ⟨hwalk, hpos, hs⟩ hbit hnull hinvalid
    have hat : s.walkAt .trL1 = some wk := walkAt_eq.2 ⟨hwalk, hpos⟩
    have hmapped : l1Outcome wk.regs e = .mapped e := by simp only [l1Outcome, hinvalid, hnull, if_false]
    simp only [exec, execTrttL1, hat, hmapped, hdual, hbit, Bool.and_self, if_true]
    exact refuseWalk_of_not_spurious hs _ s

/-- Settles O43: an Invalid outcome at any of the three levels fills the TR TLB, sets the interrupt and completes the request. -/
theorem invalidTileAlsoInterrupts : Obligations.InvalidTileAlsoInterrupts := by
  intro s wk i pos hview hr
  have ⟨_, _, hs⟩ := hr
  obtain ⟨x, hfound⟩ := tileFound_eq_tileDone wk .invalid s
  have hexec : exec i s =
      .next { s.fillTrTlb wk.req.ctx x with irqInvalidTile := true, walk := none, result := zeroCompletion wk.req } :=
    calc exec i s = tileFound wk .invalid s := exec_of_tileView hview hr (by rintro _ ⟨⟩)
      _ = invalidTile wk.trNoted (s.fillTrTlb wk.req.ctx x) := hfound
      _ = _ := invalidTile_of_not_spurious hs _
  have hfill := Looks.fillTrTlb s wk.req.ctx x
  obtain ⟨hhalted, hreset, -⟩ := hfill.pending
  exact ⟨_, hexec, rfl, rfl, rfl, hfill.sameMemory,
    sameRegisters_trans hfill.sameRegisters (sameRegisters_of_ctx rfl rfl rfl fun c => ctx_congr rfl rfl c), hhalted, hreset, hfill.nullcnt,
    fun c hc => (ctx_congr rfl rfl c).trans (hfill.others c hc)⟩

/-- Settles O45. -/
theorem nullAndInvalidIsRefused : Obligations.NullAndInvalidIsRefused := by
  intro s wk
  constructor
  · rintro ⟨hwalk, hpos, hs⟩
    simp only [exec, execTrttL3NullAndInvalid, walkAt_eq.2 ⟨hwalk, hpos⟩, refuseWalk_of_not_spurious hs]
  · rintro ⟨hwalk, hpos, hs⟩
    simp only [exec, execTrttL2NullAndInvalid, walkAt_eq.2 ⟨hwalk, hpos⟩, refuseWalk_of_not_spurious hs]

/-- Settles O46: the refusal ends the spurious cycle, and only a WRITE's end frees memory. -/
theorem nullAndInvalidEndsASpuriousCycle : Obligations.NullAndInvalidEndsASpuriousCycle := by
  intro s wk i hwalk hs hi
  have hexec : exec i s = .next (endSpurious wk s) := by
    obtain ⟨rfl, hpos⟩ | ⟨rfl, hpos⟩ := hi
    · simp only [exec, execTrttL3NullAndInvalid, walkAt_eq.2 ⟨hwalk, hpos⟩, refuseWalk_of_spurious hs]
    · simp only [exec, execTrttL2NullAndInvalid, walkAt_eq.2 ⟨hwalk, hpos⟩, refuseWalk_of_spurious hs]
  have hregs : sameRegisters s (endSpurious wk s) := (endSpurious_changes (q := wk.req) .refl).sameRegisters
  refine ⟨_, _, hexec, rfl, rfl, rfl, hregs, ?_⟩
  cases hv : wk.req.value with
  | none => exact ⟨by simp [endSpurious, hv], by simp [endSpurious, hv], by simp [endSpurious, hv, sameCounter], fun _ =>
      sameMemory_of_mem (by simp [endSpurious, hv]) (by simp [endSpurious, hv])⟩
  | some v => exact ⟨by simp [endSpurious, hv], by simp [endSpurious, hv], by simp [endSpurious, hv, sameCounter], by rintro ⟨⟩⟩

end Sys2Proof.Machine

/-! # Admission and the choice of the translator

A READ and a WRITE are the same request but for the value; admission looks at four conditions in order (40_request_pipeline R156), and the
translation begins by the context's kind and its TR-TT registers (R151). -/

namespace Sys2Proof.Machine

section Admission

variable {s t : State} {q : Request} {e : Engine} {c : CtxId} {gva : Word64} {n v : Nat} {i : Instr}

/-! ## Requests -/

/-- The state in which a new request begins: its number is taken and no walk is open. -/
def State.forRequest (s : State) : State := { s with nextReq := s.nextReq + 1, walk := none }

@[simp] theorem forRequest_ctx (s : State) (c : CtxId) : s.forRequest.ctx c = s.ctx c := ctx_congr rfl rfl c
@[simp] theorem forRequest_cfg (s : State) : s.forRequest.cfg = s.cfg := rfl
@[simp] theorem forRequest_trbypass (s : State) : s.forRequest.trbypass = s.trbypass := rfl
@[simp] theorem forRequest_needsReset (s : State) : s.forRequest.needsReset = s.needsReset := rfl

theorem exec_read (s : State) : exec (.read e c gva n) s =
    runRequest { id := s.nextReq, agent := e, ctx := c, gva := gva, n := n, value := none } s.forRequest := rfl

theorem exec_write (s : State) : exec (.write e c gva n v) s =
    runRequest { id := s.nextReq, agent := e, ctx := c, gva := gva, n := n, value := some v } s.forRequest := rfl

/-- An instruction that is a READ or a WRITE runs a request of its operands. -/
theorem exec_request (hi : i = .read e c gva n ∨ i = .write e c gva n v) :
    ∃ q : Request, q.agent = e ∧ q.ctx = c ∧ q.gva = gva ∧ q.n = n ∧ exec i s = runRequest q s.forRequest := by
  obtain rfl | rfl := hi
  · exact ⟨_, rfl, rfl, rfl, rfl, exec_read s⟩
  · exact ⟨_, rfl, rfl, rfl, rfl, exec_write s⟩

theorem runRequest_of_refused {why : Refusal} (h : admission q s = some why) : runRequest q s = .refused why := by
  rw [runRequest, h]

theorem inOnePage_iff : inOnePage gva n = true ↔ 1 ≤ n ∧ (gva.extractLsb' 0 12).toNat + n ≤ 4096 := by
  simp only [inOnePage, Bool.and_eq_true, decide_eq_true_eq]

/-- The rule's conditions for a request are the ones admission looks at (40_request_pipeline R156). -/
theorem admission_eq_none (h : admitted s q.ctx q.gva q.n) : admission q s = none := by
  obtain ⟨hupper, hpos, hpage, hshape, hreset⟩ := h
  have hone : inOnePage q.gva q.n = true := inOnePage_iff.2 ⟨hpos, hpage⟩
  simp [admission, hupper, hone, hshape, hreset]

theorem runRequest_of_admitted (h : admitted s q.ctx q.gva q.n) : runRequest q s = finish (beginTranslate q s) := by
  rw [runRequest, admission_eq_none h]

theorem admitted_forRequest (h : admitted s c gva n) : admitted s.forRequest c gva n := by
  simpa [admitted] using h

/-- A request whose translation is refused at once is refused. -/
theorem runRequest_of_beginTranslate_refused {why : Refusal} (h : admitted s q.ctx q.gva q.n)
    (hb : beginTranslate q s = .refused why) : runRequest q s = .refused why := by
  rw [runRequest_of_admitted h, hb]
  rfl

/-! ## The beginning of a TR-TT walk -/

/-- The L3 entry's address: L3BASE, four zeros, the index and three zeros (41_trtt R172). -/
theorem entry8_l3Base (r : TrRegs) (k : BitVec 9) :
    entry8 (l3Base r) k = (0 : BitVec 16) ++ r.l3ptr.extractLsb' 16 32 ++ (0 : BitVec 4) ++ k ++ (0 : BitVec 3) := by
  have hbase : l3Base r = (r.l3ptr.extractLsb' 16 32 ++ (0 : BitVec 4) ++ (0 : BitVec 12)).setWidth 64 := by
    apply BitVec.eq_of_toNat_eq
    simp only [l3Base, BitVec.toNat_setWidth, toNat_append_eq, BitVec.ofNat_eq_ofNat, BitVec.toNat_ofNat]
    omega
  rw [hbase, entry8_append _ _ (by decide)]
  apply BitVec.eq_of_toNat_eq
  have hx := (r.l3ptr.extractLsb' 16 32).isLt
  simp only [BitVec.toNat_setWidth, toNat_append_eq, BitVec.ofNat_eq_ofNat, BitVec.toNat_ofNat]
  omega

/-- With its registers as they are and TR-TT active, a request of a PPGTT context begins by the detection of its address. -/
theorem beginTranslate_of_active (hkind : (s.ctx q.ctx).kind = .ppgtt48) (hold : (s.ctx q.ctx).caches.trOld = [])
    (hactive : trActive s.cfg s.trbypass (s.ctx q.ctx).tr = true) :
    beginTranslate q s =
      match trDetect (s.ctx q.ctx).tr q.gva with
      | none => .refused .trvamvUnsupported
      | some true =>
        if trEngine q.agent then beginTrtt (Walk.start q (s.ctx q.ctx).tr) s else .refused .trttEngine
      | some false => beginPpgtt (Walk.start q (s.ctx q.ctx).tr) s := by
  simp only [beginTranslate, hkind, pickRegs_present s q.ctx hold, hactive, if_true] <;> rfl

end Admission

/-- Settles O24: the first condition that fails names the refusal. -/
theorem requestsNotAdmittedAreRefused : Obligations.RequestsNotAdmittedAreRefused := by
  intro s e c gva n v i hzero hi
  have hrefused {why : Refusal} (h : ∀ q : Request, q.ctx = c → q.gva = gva → q.n = n → admission q s.forRequest = some why) :
      exec i s = .refused why := by
    obtain ⟨q, -, hc, hg, hn, hexec⟩ := exec_request (s := s) hi
    exact hexec.trans (runRequest_of_refused (h q hc hg hn))
  refine ⟨fun hbits => hrefused ?_, fun hggtt hppgtt => ⟨fun hcross => hrefused ?_, fun hpos hpage => ⟨fun hshape => hrefused ?_,
    fun hmax halign hreset => hrefused ?_⟩⟩⟩
  · rintro q rfl rfl rfl
    have hupper : upperOk s.cfg (s.ctx q.ctx).kind q.gva = false := by
      obtain ⟨hkind, hle⟩ | ⟨hkind, hle⟩ := hbits <;> simpa [upperOk, hzero, hkind] using hle
    simp [admission, hupper]
  all_goals
    rintro q rfl rfl rfl
    have hupper : upperOk s.cfg (s.ctx q.ctx).kind q.gva = true := by
      cases hkind : (s.ctx q.ctx).kind with
      | ggtt => simpa [upperOk, hzero] using hggtt hkind
      | ppgtt48 => simpa [upperOk, hzero] using hppgtt hkind
      | advPpgtt64 | ppgtt32 => simp [upperOk, hzero]
  · have hone : inOnePage q.gva q.n = false := by
      rw [← Bool.not_eq_true, inOnePage_iff]
      omega
    simp [admission, hupper, hone]
  · have hone : inOnePage q.gva q.n = true := inOnePage_iff.2 ⟨hpos, hpage⟩
    have hshape : shapeOk s.cfg q.gva q.n = false := by
      simp only [shapeOk, Bool.and_eq_false_iff, decide_eq_false_iff_not, beq_eq_false_iff_ne]
      omega
    simp [admission, hupper, hone, hshape]
  · have hone : inOnePage q.gva q.n = true := inOnePage_iff.2 ⟨hpos, hpage⟩
    have hshape : shapeOk s.cfg q.gva q.n = true := by simp [shapeOk, hmax, halign]
    simp [admission, hupper, hone, hshape, hreset]

/-- Settles O25: the engine is looked at where the address is detected as a TR-VA. -/
theorem otherEnginesMayNotUseTiles : Obligations.OtherEnginesMayNotUseTiles := by
  intro s e c gva n v i hadm hkind hold hactive hdetect hrender hposh hi
  obtain ⟨q, rfl, rfl, rfl, rfl, hexec⟩ := exec_request (s := s) hi
  have hengine : trEngine q.agent = false := by
    cases he : q.agent <;> simp_all [trEngine]
  refine hexec.trans (runRequest_of_beginTranslate_refused (admitted_forRequest hadm) ?_)
  rw [beginTranslate_of_active (by simpa using hkind) (by simpa using hold) (by simpa using hactive)]
  simp only [forRequest_ctx, hdetect, hengine, Bool.false_eq_true, if_false]

/-- Settles O26: with an empty TR TLB the walk's checks of the registers come one after the other. -/
theorem tileRequestsUnderExcludedRegistersAreRefused : Obligations.TileRequestsUnderExcludedRegistersAreRefused := by
  intro s e c gva n v i hadm hkind hold htr hactive he hi r l3
  have hrefused {why : Refusal}
      (h : ∀ q : Request, q.agent = e → q.ctx = c → q.gva = gva → beginTranslate q s.forRequest = .refused why) :
      exec i s = .refused why := by
    obtain ⟨q, rfl, rfl, rfl, rfl, hexec⟩ := exec_request (s := s) hi
    exact hexec.trans (runRequest_of_beginTranslate_refused (admitted_forRequest hadm) (h q rfl rfl rfl))
  have hbegin (q : Request) (hc : q.ctx = c) := beginTranslate_of_active (q := q) (s := s.forRequest) (by simpa [hc] using hkind)
    (by simpa [hc] using hold) (by simpa [hc] using hactive)
  have hengine : trEngine e = true := by obtain rfl | rfl := he <;> rfl
  have hlookup : s.forRequest.lookupTrTlb c gva = (none, s.forRequest) := lookupTrTlb_of_nil (by simpa using htr) gva
  refine ⟨fun hdetect => hrefused ?_, fun hdetect hgpa => hrefused ?_, fun hdetect hvirtual heq => hrefused ?_,
    fun hdetect hvirtual hne htable => hrefused ?_⟩
  all_goals
    rintro q rfl rfl rfl
    rw [hbegin q rfl]
    simp only [forRequest_ctx]
  · rw [show trDetect (s.ctx q.ctx).tr q.gva = none from hdetect]
  all_goals
    rw [show trDetect (s.ctx q.ctx).tr q.gva = some true from hdetect]
    simp only [hengine, if_true, beginTrtt, Walk.start, hlookup]
  · have hv : trVirtual (s.ctx q.ctx).tr = false := hgpa
    simp only [hv, Bool.not_false, if_true]
    exact refuseWalk_of_not_spurious rfl _ _
  · have hv : trVirtual (s.ctx q.ctx).tr = true := hvirtual
    have heq : (s.ctx q.ctx).tr.nulldet = (s.ctx q.ctx).tr.invdet := heq
    simp only [hv, heq, Bool.not_true, Bool.false_eq_true, if_false, if_true]
    exact refuseWalk_of_not_spurious rfl _ _
  · have hv : trVirtual (s.ctx q.ctx).tr = true := hvirtual
    have hne : ¬ (s.ctx q.ctx).tr.nulldet = (s.ctx q.ctx).tr.invdet := hne
    have htable : trDetect (s.ctx q.ctx).tr (entry8 (l3Base (s.ctx q.ctx).tr) (trIdx3 q.gva)) = some true := by
      rw [entry8_l3Base]
      exact htable
    simp only [hv, hne, Bool.not_true, Bool.false_eq_true, if_false, tableRead, htable]
    exact refuseWalk_of_not_spurious rfl _ _

/-- Settles O31: the kind is looked at first. -/
theorem undefinedModesAreRefused : Obligations.UndefinedModesAreRefused := by
  intro s e c gva n v i hadm hkind hi
  obtain ⟨q, -, rfl, rfl, rfl, hexec⟩ := exec_request (s := s) hi
  refine hexec.trans (runRequest_of_beginTranslate_refused (admitted_forRequest hadm) ?_)
  obtain hkind | hkind := hkind <;> simp only [beginTranslate, forRequest_ctx, hkind]

end Sys2Proof.Machine

/-! # Registers of the host

What a DWord of a context's registers reads after a write, and what MMIO_WRITE and MMIO_READ do to the state. -/

namespace Sys2Proof.Machine

section Registers

variable {s t : State} {r r' : RegName} {k : Nat} {v : Word32} {x y : TrRegs}

/-! ## The two DWords of TRVATTL3PTR -/

theorem l3ptr_extract_low (a : Word64) : (a &&& l3ptrMask).extractLsb' 0 32 = a.extractLsb' 0 32 &&& 0xFFFF0000#32 := by
  rw [BitVec.extractLsb'_and]
  rfl

theorem l3ptr_extract_high (a : Word64) : (a &&& l3ptrMask).extractLsb' 32 32 = a.extractLsb' 32 32 &&& 0x0000FFFF#32 := by
  rw [BitVec.extractLsb'_and]
  rfl

theorem and_and_same (a m : Word32) : a &&& m &&& m = a &&& m := by rw [BitVec.and_assoc, BitVec.and_self]

theorem and_allOnes32 (a : Word32) : a &&& 0xFFFFFFFF#32 = a := BitVec.and_allOnes

/-! ## A register copy, by DWord -/

theorem regsReadDword_fieldBits (hr : perContext r = true) (x : TrRegs) : ∃ w, regsReadDword x r = some w ∧ w &&& fieldBits r = w := by
  cases r with
  | trvattl3ptrDw0 => exact ⟨_, rfl, by rw [l3ptr_extract_low]; exact and_and_same _ _⟩
  | trvattl3ptrDw1 => exact ⟨_, rfl, by rw [l3ptr_extract_high]; exact and_and_same _ _⟩
  | trnulldet | trinvdet => exact ⟨_, rfl, and_allOnes32 _⟩
  | trvadr | trtte => exact ⟨_, rfl, and_and_same _ _⟩
  | trbypass | pgtblCtl | pgtblCtl2 | nullcnt | offset => exact absurd hr Bool.false_ne_true

/-- A write of a register DWord sets its fields, and they read back (10_state R42). -/
theorem regsWriteDword_read_same (hr : perContext r = true) (x : TrRegs) (v : Word32) :
    ∃ y, regsWriteDword x r v = some y ∧ regsReadDword y r = some (v &&& fieldBits r) := by
  cases r with
  | trvattl3ptrDw0 =>
    refine ⟨_, rfl, congrArg some ?_⟩
    rw [l3ptr_extract_low, l3ptr_extract_low, BitVec.extractLsb'_append_eq_right]
    exact and_and_same _ _
  | trvattl3ptrDw1 =>
    refine ⟨_, rfl, congrArg some ?_⟩
    rw [l3ptr_extract_high, l3ptr_extract_high, BitVec.extractLsb'_append_eq_left]
    exact and_and_same _ _
  | trnulldet | trinvdet => exact ⟨_, rfl, congrArg some (and_allOnes32 _).symm⟩
  | trvadr | trtte => exact ⟨_, rfl, congrArg some (and_and_same _ _)⟩
  | trbypass | pgtblCtl | pgtblCtl2 | nullcnt | offset => exact absurd hr Bool.false_ne_true

/-- Two registers of a context share no field, but for the halves of TRVATTL3PTR: each keeps its own under a write of the other. -/
theorem regsWriteDword_read_other (hne : r' ≠ r) (h : regsWriteDword x r v = some y) : regsReadDword y r' = regsReadDword x r' := by
  cases r with
  | trvattl3ptrDw0 =>
    cases h
    cases r' with
    | trvattl3ptrDw0 => exact absurd rfl hne
    | trvattl3ptrDw1 =>
      refine congrArg some ?_
      rw [l3ptr_extract_high, l3ptr_extract_high, BitVec.extractLsb'_append_eq_left, l3ptr_extract_high]
      exact and_and_same _ _
    | _ => rfl
  | trvattl3ptrDw1 =>
    cases h
    cases r' with
    | trvattl3ptrDw1 => exact absurd rfl hne
    | trvattl3ptrDw0 =>
      refine congrArg some ?_
      rw [l3ptr_extract_low, l3ptr_extract_low, BitVec.extractLsb'_append_eq_right, l3ptr_extract_low]
      exact and_and_same _ _
    | _ => rfl
  | trnulldet =>
    cases h
    cases r' with
    | trnulldet => exact absurd rfl hne
    | _ => rfl
  | trinvdet =>
    cases h
    cases r' with
    | trinvdet => exact absurd rfl hne
    | _ => rfl
  | trvadr =>
    cases h
    cases r' with
    | trvadr => exact absurd rfl hne
    | _ => rfl
  | trtte =>
    cases h
    cases r' with
    | trtte => exact absurd rfl hne
    | _ => rfl
  | trbypass | pgtblCtl | pgtblCtl2 | nullcnt | offset => cases h

/-! ## MMIO of a context's registers -/

theorem exec_mmioWrite_perContext (hr : perContext r = true) (h : regsWriteDword (s.ctx (.proc k)).tr r v = some y) :
    exec (.mmioWrite r (.proc k) v) s = .next { s.setRegs k y with result := .done } := by
  have hdispatch : exec (.mmioWrite r (.proc k) v) s = writeCtxReg r (.proc k) v s := by
    cases r with
    | trbypass | pgtblCtl | pgtblCtl2 | nullcnt | offset => exact absurd hr Bool.false_ne_true
    | _ => rfl
  rw [hdispatch, writeCtxReg, h]

theorem exec_mmioRead_perContext {w : Word32} (hr : perContext r = true) (h : regsReadDword (s.ctx (.proc k)).tr r = some w) :
    exec (.mmioRead r (.proc k)) s = .next { s with result := .register w } := by
  have hdispatch : exec (.mmioRead r (.proc k)) s = readCtxReg r (.proc k) s := by
    cases r with
    | trbypass | pgtblCtl | pgtblCtl2 | nullcnt | offset => exact absurd hr Bool.false_ne_true
    | _ => rfl
  rw [hdispatch, readCtxReg, h]

/-- What reads a register draws free values at most. -/
theorem unchanged_of_result (s : State) (x : Result) (d : Nat) : unchanged s { s with result := x, draws := d } :=
  ⟨sameMemory_of_mem rfl rfl, sameRegisters_of_ctx rfl rfl rfl fun _ => ctx_congr rfl rfl _, ⟨rfl, rfl, rfl⟩, rfl⟩

theorem resolve_trbypass {p : Params} (hr : r = .trbypass ∨ r = .offset 0x4DFC#32) : resolve p r = .trbypass := by
  obtain rfl | rfl := hr
  · rfl
  · rw [resolve, if_pos rfl]

theorem resolve_offset_unlisted {p : Params} {o : Word32} (ho : o ≠ 0x4DFC#32) (h : p.offsets.lookup o = none) :
    resolve p (.offset o) = .offset o := by
  rw [resolve, if_neg ho, h, Option.getD_none]

end Registers

/-- Settles O47: the write installs the register copy with one DWord's fields replaced. -/
theorem registerReadsBackItsFields : Obligations.RegisterReadsBackItsFields := by
  intro s r k v hr
  obtain ⟨y, hwrite, hread⟩ := regsWriteDword_read_same hr (s.ctx (.proc k)).tr v
  obtain ⟨old, hctx, -⟩ := ctx_setRegs_same s k y
  have hproc := (ctx_congr (s := s.setRegs k y) (t := { s.setRegs k y with result := .done }) rfl rfl _).trans hctx
  refine ⟨_, _, exec_mmioWrite_perContext hr hwrite, exec_mmioRead_perContext hr (by rw [hproc]; exact hread), rfl,
    fun r' _ hne => ?_, fun c hc => (ctx_congr rfl rfl c).trans (ctx_setRegs_other s k y hc), ?_⟩
  · rw [hproc]
    exact regsWriteDword_read_other hne hwrite
  · rw [hproc]
    exact ⟨rfl, rfl, rfl, rfl, setRegs_cfg s k y, setRegs_trbypass s k y, setRegs_pgtblCtl2 s k y,
      sameMemory_of_mem (setRegs_mem s k y) (setRegs_epoch s k y),
      ⟨setRegs_halted s k y, setRegs_needsReset s k y, setRegs_irqInvalidTile s k y⟩, setRegs_nullcnt s k y⟩

/-- Settles O48. -/
theorem registerReadHasNoSideEffect : Obligations.RegisterReadHasNoSideEffect := by
  intro s r k hr
  obtain ⟨w, hread, hfields⟩ := regsReadDword_fieldBits hr (s.ctx (.proc k)).tr
  exact ⟨_, w, exec_mmioRead_perContext hr hread, rfl, hread, hfields, unchanged_of_result s _ _, fun c => ctx_congr rfl rfl c⟩

/-- Settles O49: both names resolve to TRBYPASS, whose bit 0 is `trbypass`. -/
theorem bypassBitIsWrittenAndRead : Obligations.BypassBitIsWrittenAndRead := by
  intro s r c v hr
  refine ⟨⟨{ s with trbypass := v.getLsbD 0, result := .done }, ?_, rfl, rfl, rfl, fun _ => ctx_congr rfl rfl _,
      sameMemory_of_mem rfl rfl, ⟨rfl, rfl, rfl⟩, rfl⟩,
    ⟨{ s with result := .register (Config.bypassUpper s.draws ++ BitVec.ofBool s.trbypass), draws := s.draws + 1 }, _, ?_, rfl, ?_,
      unchanged_of_result s _ _, fun _ => ctx_congr rfl rfl _⟩,
    ⟨_, _, rfl, rfl, unchanged_of_result s _ _, fun _ => ctx_congr rfl rfl _⟩⟩
  · show execMmioWrite r c v s = _
    rw [execMmioWrite, resolve_trbypass hr]
  · show execMmioRead r c s = _
    rw [execMmioRead, resolve_trbypass hr]
  · rw [BitVec.getLsbD_append]
    cases s.trbypass <;> rfl

/-- Settles O50: none of these names resolves to a register with a layout. -/
theorem unmodelledRegistersAreRefused : Obligations.UnmodelledRegistersAreRefused := by
  intro s c v o ho hlookup
  have hoffset := resolve_offset_unlisted ho hlookup
  refine ⟨rfl, rfl, rfl, rfl, rfl, ?_, ?_⟩
  · show execMmioWrite (.offset o) c v s = _
    rw [execMmioWrite, hoffset]
  · show execMmioRead (.offset o) c s = _
    rw [execMmioRead, hoffset]

end Sys2Proof.Machine

/-! # The fetched entry, updates of tables, and the host's control operations -/

namespace Sys2Proof.Machine

section Fetch

variable {s : State} {wk : Walk} {i : Instr}

/-! ## The entry a step runs -/

/-- As many bytes as a position's entry has decode to it, with nothing left over. -/
theorem decode_exact {p : Params} {pos : Pos} {l : List Byte} (h : l.length = entryBytes pos) :
    decode p pos l = .ok (decodeEntry p pos (BitVec.ofNat 64 (leNat l)), []) := by
  rw [decode, if_neg (by omega), ← h, List.take_length, List.drop_length]

/-- The walker gets the word that memory holds, but for a cached PML4, an incorrect value and an entry with no value by the rules. -/
theorem fetchWord_settled (hforced : wk.forced = none) (hpml4 : wk.pos = .pml4 → (s.ctx wk.req.ctx).caches.pml4c = none)
    (hquiet : wk.pos = .ggtt ∨ s.broken wk.req.ctx = false ∧ s.halfWritten wk.space wk.pa.toNat (entryBytes wk.pos) = false) :
    fetchWord wk s = (BitVec.ofNat 64 (s.physRead wk.space wk.pa (entryBytes wk.pos)), s) := by
  have htable (h : wk.pos ≠ .ggtt) : s.readTable wk.req.ctx wk.space wk.pa (entryBytes wk.pos) =
      (s.physRead wk.space wk.pa (entryBytes wk.pos), s) := by
    obtain hggtt | ⟨hbroken, hwhole⟩ := hquiet
    · exact absurd hggtt h
    · exact readTable_settled _ _ _ _ _ hbroken hwhole
  unfold fetchWord
  rw [hforced]
  cases hpos : wk.pos with
  | ggtt => rfl
  | pml4 =>
    rw [hpos] at htable
    simp only [hpml4 hpos, entryBytes] at htable ⊢
    rw [htable (by simp)]
  | _ =>
    rw [hpos] at htable
    simp only [entryBytes] at htable ⊢
    rw [htable (by simp)]

theorem step_of_fetchWord {w : Word64} (hwalk : s.walk = some wk) (h : fetchWord wk s = (w, s)) :
    step s = exec (decodeEntry s.cfg wk.pos w) s := by
  simp only [step, hwalk, fetch, h]

end Fetch

section Tables

variable {s : State} {who : Agent} {l : List (BitVec 20 × Word64)}

/-! ## Updates of the GGTT -/

theorem haw_le (p : Params) : 2 ^ p.haw.bits ≤ 2 ^ 64 := by
  cases p.haw <;> decide

theorem ggttRefusal_none {p : Params} (halign : p.ggttBase.extractLsb' 0 12 = 0)
    (hfits : p.ggttBase.toNat + 2 ^ 23 ≤ 2 ^ p.haw.bits) : ggttRefusal p = none := by
  have haligned : aligned4k p.ggttBase = true := by rw [aligned4k, halign]; rfl
  have hfit : ggttFits p = true := decide_eq_true hfits
  rw [ggttRefusal, haligned, hfit]
  rfl

/-- The GGTT's entries do not wrap: the last ends where its 8 MB end. -/
theorem toNat_ggttEntry {p : Params} (hfits : p.ggttBase.toNat + 2 ^ 23 ≤ 2 ^ p.haw.bits) (k : BitVec 20) :
    (ggttEntry p.ggttBase k).toNat = p.ggttBase.toNat + 8 * k.toNat := by
  have hhaw := haw_le p
  have hk := k.isLt
  have hindex : (k.setWidth 64 * 8).toNat = 8 * k.toNat := by
    simp only [BitVec.toNat_mul, BitVec.toNat_setWidth, BitVec.ofNat_eq_ofNat, BitVec.toNat_ofNat, Nat.reducePow, Nat.reduceMod]
    omega
  rw [ggttEntry, BitVec.toNat_add, hindex]
  omega

theorem writeGgttEntry_outside (hfits : s.cfg.ggttBase.toNat + 2 ^ 23 ≤ 2 ^ s.cfg.haw.bits) (u : BitVec 20 × Word64) :
    sameMemoryOutside s (writeGgttEntry who s u) .system (s.cfg.ggttBase.toNat + 8 * u.1.toNat) 8 := by
  rw [← toNat_ggttEntry hfits]
  exact sameMemoryOutside_physWrite s who .system _ 8 _

theorem writeGgttEntry_holds (hfits : s.cfg.ggttBase.toNat + 2 ^ 23 ≤ 2 ^ s.cfg.haw.bits) (k : BitVec 20) (e : Word64) :
    holds (writeGgttEntry who s (k, e)) .system (s.cfg.ggttBase.toNat + 8 * k.toNat) 8 e.toNat := by
  rw [← toNat_ggttEntry hfits]
  exact holds_physWrite s who .system _ 8 _

theorem foldl_writeGgttEntry_outside (hfits : s.cfg.ggttBase.toNat + 2 ^ 23 ≤ 2 ^ s.cfg.haw.bits) {sp : Space} {b : Nat}
    (hout : ∀ u ∈ l, ¬ (sp = .system ∧ s.cfg.ggttBase.toNat + 8 * u.1.toNat ≤ b ∧ b < s.cfg.ggttBase.toNat + 8 * u.1.toNat + 8)) :
    (l.foldl (writeGgttEntry who) s).byteAt sp b = s.byteAt sp b := by
  induction l generalizing s with
  | nil => rfl
  | cons u l ih =>
    have hu := hout u List.mem_cons_self
    have hl := ih (s := writeGgttEntry who s u) hfits fun u' hu' => hout u' (List.mem_cons_of_mem _ hu')
    exact hl.trans (writeGgttEntry_outside hfits u sp b hu)

/-- Of several updates of one index the last one stands. -/
theorem foldl_writeGgttEntry_holds (hfits : s.cfg.ggttBase.toNat + 2 ^ 23 ≤ 2 ^ s.cfg.haw.bits) {l1 l2 : List (BitVec 20 × Word64)}
    {k : BitVec 20} {e : Word64} (hlast : ∀ u ∈ l2, u.1 ≠ k) :
    holds ((l1 ++ (k, e) :: l2).foldl (writeGgttEntry who) s) .system (s.cfg.ggttBase.toNat + 8 * k.toNat) 8 e.toNat := by
  intro i hi
  obtain ⟨m, hist, clock, breach, hfirst⟩ := foldl_writeGgttEntry_stores who l1 s
  have hcfg : (l1.foldl (writeGgttEntry who) s).cfg = s.cfg := by rw [hfirst]
  rw [List.foldl_append, List.foldl_cons, foldl_writeGgttEntry_outside (s := writeGgttEntry who _ _)]
  · rw [← hcfg]
    rw [← hcfg] at hfits
    exact writeGgttEntry_holds hfits k e i hi
  · show (l1.foldl (writeGgttEntry who) s).cfg.ggttBase.toNat + 2 ^ 23 ≤ _
    rw [hcfg]
    exact hcfg ▸ hfits
  · intro u hu
    have hne : u.1.toNat ≠ k.toNat := fun h => hlast u hu (BitVec.eq_of_toNat_eq h)
    show ¬ (_ ∧ (l1.foldl (writeGgttEntry who) s).cfg.ggttBase.toNat + _ ≤ _ ∧ _ < (l1.foldl (writeGgttEntry who) s).cfg.ggttBase.toNat + _ + 8)
    rw [hcfg]
    omega

/-- A state after stores: registers, exception state, counter and walk are as before. -/
theorem stores_leave (s : State) (m : Memory) (hist : List PastWrite) (clock breach : Nat) :
    (let t : State := { s with mem := m, hist := hist, clock := clock, breach := breach, result := .done }
     sameRegisters s t ∧ samePending s t ∧ sameCounter s t ∧ t.walk = s.walk) :=
  ⟨sameRegisters_of_ctx rfl rfl rfl fun _ => ctx_congr rfl rfl _, ⟨rfl, rfl, rfl⟩, rfl, rfl⟩

end Tables

section Control

variable {s t : State} {r : RegName}

/-! ## Loading and resetting contexts -/

/-- A copy with its reserved bits zero reads as the copy does, field by field. -/
theorem regsReadDword_regsMasked (hr : perContext r = true) (x : TrRegs) :
    regsReadDword (regsMasked x) r = (regsReadDword x r).map (· &&& fieldBits r) := by
  obtain ⟨w, hw, hfields⟩ := regsReadDword_fieldBits hr x
  rw [hw, Option.map_some, hfields, ← hw]
  cases r with
  | trvattl3ptrDw0 | trvattl3ptrDw1 =>
    simp only [regsReadDword, regsMasked, BitVec.and_assoc, BitVec.and_self]
  | trvadr | trtte => simp only [regsReadDword, regsMasked, and_and_same]
  | _ => rfl

/-- The record that CTX_LOAD gives a process context where it is an invalidation event. -/
def State.loadedCtx (s : State) (k : Nat) (m : CtxImage) : Ctx :=
  { (s.ctx (.proc k)).load m with tr := regsAfterLoad m (s.ctx (.proc k)).tr, caches := s.flushed }

theorem execReset_ctx_proc (h : execReset s = .next t) (k : Nat) : t.ctx (.proc k) = (s.ctx (.proc k)).afterReset := by
  cases h
  simp only [State.ctx, assocGet_map Ctx.afterReset]
  cases assocGet s.ctxs k <;> rfl

theorem execReset_ctx_global (h : execReset s = .next t) : t.ctx .global = { s.ctx .global with caches := Caches.empty } := by
  cases h
  rfl

theorem execReset_cold (h : execReset s = .next t) (c : CtxId) : t.cold c := by
  have hcaches : (t.ctx c).caches = { Caches.empty with since := 0 } := by
    cases c with
    | global => rw [execReset_ctx_global h]; rfl
    | proc k => rw [execReset_ctx_proc h]; rfl
  have hbreach : t.breach = 0 := by cases h; rfl
  exact cold_of_caches hcaches (hbreach ▸ Nat.zero_le _)

theorem execReset_values (h : execReset s = .next t) (c : CtxId) :
    (t.ctx c).kind = (s.ctx c).kind ∧ (t.ctx c).pml4 = (s.ctx c).pml4 ∧ (t.ctx c).neste = (s.ctx c).neste ∧
      (t.ctx c).wpe = (s.ctx c).wpe := by
  cases c with
  | global => rw [execReset_ctx_global h]; exact ⟨rfl, rfl, rfl, rfl⟩
  | proc k => rw [execReset_ctx_proc h]; exact ⟨rfl, rfl, rfl, rfl⟩

theorem regsReadDword_reset (hr : perContext r = true) : regsReadDword TrRegs.reset r = some 0 := by
  cases r with
  | trbypass | pgtblCtl | pgtblCtl2 | nullcnt | offset => exact absurd hr Bool.false_ne_true
  | _ => rfl

end Control

/-- Settles O1: the walker's word is the cached or incorrect one, or what memory holds, and `decode` reads the same bytes. -/
theorem stepRunsTheFetchedEntry : Obligations.StepRunsTheFetchedEntry := by
  intro s i
  refine ⟨fun wk hwalk hforced hpml4 hquiet hdecode => ?_, fun wk x hwalk hforced hpos hx => ?_, fun wk v hwalk hforced => ?_,
    fun rest hwalk hnext => ?_, fun hwalk hnext => ?_⟩
  · rw [decode_exact (length_bytes ..)] at hdecode
    cases hdecode
    exact step_of_fetchWord hwalk (fetchWord_settled hforced hpml4 hquiet)
  · simp only [step, hwalk, fetch_of_pml4_cached hforced hpos hx]
  · exact step_of_fetchWord hwalk (by simp only [fetchWord, hforced])
  · simp only [step, hwalk, hnext]
  · simp only [step, hwalk, hnext]

/-- Settles O2, by evaluation of the decoder on the words. -/
theorem vectorWordsDecode : Obligations.VectorWordsDecode := by
  unfold Obligations.VectorWordsDecode
  decide +kernel

/-- Settles O6, by evaluation: every list of the reset state is empty. -/
theorem resetStateIsInForm : Obligations.ResetStateIsInForm := rfl

/-- Settles O51. -/
theorem ggttUpdateStoresOneEntry : Obligations.GgttUpdateStoresOneEntry := by
  intro s k e halign hfits
  have hexec : exec (.ggttUpdate k e) s = .next { writeGgttEntry .host s (k, e) with result := .done } := by
    show execGgttUpdate k e s = _
    rw [execGgttUpdate, ggttRefusal_none halign hfits]
  exact ⟨_, hexec, writeGgttEntry_holds (who := .host) hfits k e, writeGgttEntry_outside (who := .host) hfits (k, e), stores_leave s _ _ _ _⟩

/-- Settles O52: the bytes of two different indices do not meet. -/
theorem miUpdateGttIsASequenceOfUpdates : Obligations.MiUpdateGttIsASequenceOfUpdates := by
  intro s l halign hfits
  have hexec : exec (.miUpdateGtt l) s = .next { l.foldl (writeGgttEntry .commandStreamer) s with result := .done } := by
    show execMiUpdateGtt l s = _
    rw [execMiUpdateGtt, ggttRefusal_none halign hfits]
  refine ⟨_, hexec, ?_, fun sp b hout => foldl_writeGgttEntry_outside hfits hout, ?_⟩
  · rintro l1 k e l2 rfl hlast
    exact foldl_writeGgttEntry_holds hfits hlast
  · obtain ⟨_, _, _, _, hstores⟩ := foldl_writeGgttEntry_stores .commandStreamer l s
    rw [hstores]
    exact stores_leave s _ _ _ _

/-- Settles O53. -/
theorem badGgttBaseRefusesUpdates : Obligations.BadGgttBaseRefusesUpdates := by
  intro s k e l
  have hexec (why : Refusal) (h : ggttRefusal s.cfg = some why) :
      exec (.ggttUpdate k e) s = .refused why ∧ exec (.miUpdateGtt l) s = .refused why := by
    constructor
    · show execGgttUpdate k e s = _
      rw [execGgttUpdate, h]
    · show execMiUpdateGtt l s = _
      rw [execMiUpdateGtt, h]
  refine ⟨fun halign => hexec _ ?_, fun halign hfits => hexec _ ?_⟩
  · rw [ggttRefusal, if_pos (by simpa [aligned4k] using halign)]
  · rw [ggttRefusal, if_neg (by simpa [aligned4k] using halign), if_pos (by simpa [ggttFits] using hfits)]

/-- Settles O54: the clauses are the branches of TABLE_WRITE, in its order. -/
theorem tableWriteStoresItsBytes : Obligations.TableWriteStoresItsBytes := by
  intro s sp pa n v
  have hspace (h : sp = .system ∨ s.cfg.hasLocalMemory = true) : (sp == .device && !s.cfg.hasLocalMemory) = false := by
    obtain rfl | h := h
    · rfl
    · rw [h, Bool.not_true, Bool.and_false]
  have hin (h : pa.toNat + n ≤ 2 ^ s.cfg.haw.bits) : inMemory s.cfg pa.toNat n = true := decide_eq_true h
  have hzero (h : n = 0) : exec (.tableWrite sp pa n v) s = .next { s with result := .done } := if_pos h
  refine ⟨fun hsp hmem hggtt => ?_, fun hsp hmem hggtt => ?_, fun hsp hn hmem => ?_, fun hsp hlocal hn => ?_, hzero⟩
  · by_cases hn : n = 0
    · subst hn
      exact ⟨_, hzero rfl, fun i hi => absurd hi (Nat.not_lt_zero i), fun _ _ _ => rfl, stores_leave s _ _ _ _⟩
    · refine ⟨{ s.physWrite .host sp pa (leBytes n v) with result := .done }, ?_, holds_physWrite s .host sp pa n v,
        sameMemoryOutside_physWrite s .host sp pa n v, stores_leave s _ _ _ _⟩
      show execTableWrite sp pa n v s = _
      simp [execTableWrite, hn, hspace hsp, hin hmem, hggtt]
  · have hn : n ≠ 0 := by
      rintro rfl
      simp [inGgtt, overlaps] at hggtt
    show execTableWrite sp pa n v s = _
    simp [execTableWrite, hn, hspace hsp, hin hmem, hggtt]
  · have hout : inMemory s.cfg pa.toNat n = false := decide_eq_false (by omega)
    show execTableWrite sp pa n v s = _
    simp [execTableWrite, Nat.ne_of_gt hn, hspace hsp, hout]
  · subst hsp
    show execTableWrite .device pa n v s = _
    simp [execTableWrite, Nat.ne_of_gt hn, hlocal]

/-- Settles O55: the record installed is the image's, and the last invalidation event is now. -/
theorem ctxLoadInstallsTheContext : Obligations.CtxLoadInstallsTheContext := by
  intro s k m hinvalidates hbreach
  have hexec : exec (.ctxLoad (.proc k) m) s = .next { s.setCtx (.proc k) (s.loadedCtx k m) with result := .done } :=
    if_pos hinvalidates
  have hctx : ({ s.setCtx (.proc k) (s.loadedCtx k m) with result := .done } : State).ctx (.proc k) = s.loadedCtx k m :=
    (ctx_congr rfl rfl _).trans (ctx_setCtx_same s k _)
  refine ⟨_, hexec, by rw [hctx]; rfl, by rw [hctx]; rfl, by rw [hctx]; rfl, by rw [hctx]; rfl, fun hregs => ?_,
    fun r n hregs hn => ?_, cold_of_caches (n := s.clock) (by rw [hctx]; rfl) ?_,
    fun c hc => (ctx_congr rfl rfl c).trans (ctx_setCtx_other s _ _ hc), rfl, rfl, rfl,
    sameMemory_of_mem rfl rfl, ⟨rfl, rfl, rfl⟩, rfl⟩
  · rw [hctx, State.loadedCtx, regsAfterLoad, hregs]
  · rw [hctx, State.loadedCtx, regsAfterLoad, hregs]
    exact regsReadDword_regsMasked hn r
  · rw [State.lastEvent, hctx]
    exact hbreach.trans (Nat.le_max_left ..)

/-- Settles O57. -/
theorem responseWithoutAFaultIsRefused : Obligations.ResponseWithoutAFaultIsRefused := by
  intro s k ok h
  show execFaultResponse k ok s = _
  rw [execFaultResponse, h]

/-- Settles O58. -/
theorem ackClearsTheInterrupt : Obligations.AckClearsTheInterrupt := fun _ =>
  ⟨_, rfl, rfl, rfl, rfl, sameMemory_of_mem rfl rfl, sameRegisters_of_ctx rfl rfl rfl fun _ => ctx_congr rfl rfl _, rfl,
    fun _ => ctx_congr rfl rfl _, rfl⟩

/-- Settles O59: RESET resets the record of every listed context, and an unlisted one is as if just reset. -/
theorem resetAppliesTheStatedDefaults : Obligations.ResetAppliesTheStatedDefaults := by
  refine ⟨fun s => ⟨_, rfl, rfl, fun k r hr => ?_⟩, rfl, fun k => rfl⟩
  have hctx := execReset_ctx_proc (s := s) rfl k
  have hread := exec_mmioRead_perContext hr ((congrArg (fun x => regsReadDword (Ctx.tr x) r) hctx).trans (regsReadDword_reset hr))
  exact ⟨congrArg Ctx.tr hctx, _, hread, rfl⟩

/-- Settles O60. -/
theorem resetEmptiesTheHiddenState : Obligations.ResetEmptiesTheHiddenState := fun _ =>
  ⟨_, rfl, execReset_cold rfl, rfl, rfl, rfl, rfl, rfl, execReset_values rfl⟩

end Sys2Proof.Machine

/-! # Addresses and entries, as the rules write them

The rules' pseudocode cuts addresses and entries into fields where the machine adds and decodes; here the two forms meet. The rules' walk is
cut at each entry it reads. -/

namespace Sys2Proof.Machine

section Fields

variable {p : Params} {e g g' : Word64} {n : Nat}

/-! ## Fields of an entry -/

theorem toNat_belowHaw (p : Params) (e : Word64) : (belowHaw p e).toNat = e.toNat % 2 ^ p.haw.bits := by
  have hle := haw_le p
  have hpos := Nat.two_pow_pos p.haw.bits
  rw [belowHaw, BitVec.toNat_and, BitVec.toNat_ofNat, Nat.mod_eq_of_lt (by omega), Nat.and_two_pow_sub_one_eq_mod]

theorem toNat_belowHaw_lt (p : Params) (e : Word64) : (belowHaw p e).toNat < 2 ^ 46 := by
  have hle : 2 ^ p.haw.bits ≤ 2 ^ 46 := by cases p.haw <;> decide
  rw [toNat_belowHaw]
  exact (Nat.mod_lt _ (Nat.two_pow_pos _)).trans_le hle

/-- An ADDR field reaches no further than bit 45, so its bits up to 63 are the same number (30_encoding R135). -/
theorem toNat_addrField {lo : Nat} (hlo : lo ≤ 46) (p : Params) (e : Word64) :
    ((belowHaw p e).extractLsb' lo (46 - lo)).toNat = ((belowHaw p e).extractLsb' lo (64 - lo)).toNat := by
  have hlt := toNat_belowHaw_lt p e
  have hshort : (belowHaw p e).toNat >>> lo < 2 ^ (46 - lo) := by
    rw [Nat.shiftRight_eq_div_pow, Nat.div_lt_iff_lt_mul (Nat.two_pow_pos lo), ← Nat.pow_add]
    rwa [Nat.sub_add_cancel hlo]
  have hlong : 2 ^ (46 - lo) ≤ 2 ^ (64 - lo) := Nat.pow_le_pow_right (by decide) (by omega)
  rw [BitVec.extractLsb'_toNat, BitVec.extractLsb'_toNat, Nat.mod_eq_of_lt hshort, Nat.mod_eq_of_lt (hshort.trans_le hlong)]

theorem toNat_frameField (p : Params) (e : Word64) : (frameField p e).toNat = (frameOf p e).toNat :=
  toNat_addrField (lo := 12) (by decide) p e

/-- The next entry's address, base and index (30_encoding R125). -/
theorem entry8_frameField (p : Params) (e : Word64) (k : BitVec 9) :
    entry8 (frameBase (frameField p e)) k = frameOf p e ++ k ++ (0 : BitVec 3) := by
  rw [entry8_frameBase]
  apply BitVec.eq_of_toNat_eq
  have hlt := (frameField p e).isLt
  have hk := k.isLt
  simp only [BitVec.toNat_setWidth, toNat_append_eq, ← toNat_frameField, BitVec.ofNat_eq_ofNat, BitVec.toNat_ofNat]
  omega

/-- The address in a page, frame and offset (30_encoding R126), for each page size. -/
theorem pageAddr_addrField (z : PageSize) {lo : Nat} (hz : z.offBits = lo) (hlo : lo ≤ 46) (p : Params) (e g : Word64) :
    (pageAddr z (((belowHaw p e).extractLsb' lo (46 - lo) ++ (0 : BitVec lo)).setWidth 64) g).toNat =
      ((belowHaw p e).extractLsb' lo (64 - lo)).toNat * 2 ^ lo + (g.extractLsb' 0 lo).toNat := by
  have hx := ((belowHaw p e).extractLsb' lo (46 - lo)).isLt
  have hg := (g.extractLsb' 0 lo).isLt
  have hlt : (((belowHaw p e).extractLsb' lo (46 - lo)).toNat + 1) * 2 ^ lo ≤ 2 ^ 64 := by
    refine (Nat.mul_le_mul_right _ hx).trans ?_
    rw [← Nat.pow_add, Nat.sub_add_cancel hlo]
    decide
  rw [Nat.add_mul, Nat.one_mul] at hlt
  rw [pageAddr, base_add_pageOff z hz _ (by omega), ← toNat_addrField hlo, BitVec.toNat_setWidth, toNat_append_eq,
    Nat.mod_eq_of_lt (by omega)]

theorem pageAddr_k4 (p : Params) (e g : Word64) :
    pageAddr .k4 (frameBase (frameField p e)) g = frameOf p e ++ g.extractLsb' 0 12 := by
  apply BitVec.eq_of_toNat_eq
  rw [toNat_append_eq]
  exact pageAddr_addrField .k4 rfl (by decide) p e g

theorem pageAddr_k64 (p : Params) (e g : Word64) :
    pageAddr .k64 (baseK64 ((belowHaw p e).extractLsb' 16 30)) g = (belowHaw p e).extractLsb' 16 48 ++ g.extractLsb' 0 16 := by
  apply BitVec.eq_of_toNat_eq
  rw [toNat_append_eq]
  exact pageAddr_addrField .k64 rfl (by decide) p e g

theorem pageAddr_m2 (p : Params) (e g : Word64) :
    pageAddr .m2 (baseM2 ((belowHaw p e).extractLsb' 21 25)) g = (belowHaw p e).extractLsb' 21 43 ++ g.extractLsb' 0 21 := by
  apply BitVec.eq_of_toNat_eq
  rw [toNat_append_eq]
  exact pageAddr_addrField .m2 rfl (by decide) p e g

theorem pageAddr_g1 (p : Params) (e g : Word64) :
    pageAddr .g1 (baseG1 ((belowHaw p e).extractLsb' 30 16)) g = (belowHaw p e).extractLsb' 30 34 ++ g.extractLsb' 0 30 := by
  apply BitVec.eq_of_toNat_eq
  rw [toNat_append_eq]
  exact pageAddr_addrField .g1 rfl (by decide) p e g

/-! ## Fields of an address -/

/-- Two addresses with the same bits from `n` up have the same field above `n`. -/
theorem extractLsb'_congr {lo len : Nat} (h : g' >>> n = g >>> n) (hn : n ≤ lo) : g'.extractLsb' lo len = g.extractLsb' lo len := by
  have hshift (x : Word64) : x.extractLsb' lo len = (x >>> n).extractLsb' (lo - n) len := by
    apply BitVec.eq_of_toNat_eq
    rw [BitVec.extractLsb'_toNat, BitVec.extractLsb'_toNat, BitVec.toNat_ushiftRight, ← Nat.shiftRight_add, Nat.add_sub_cancel' hn]
  rw [hshift, hshift, h]

theorem shiftRight_mono {m : Nat} (h : g' >>> n = g >>> n) (hn : n ≤ m) : g' >>> m = g >>> m := by
  have hshift (x : Word64) : x >>> m = x >>> n >>> (m - n) := by rw [← BitVec.shiftRight_add, Nat.add_sub_cancel' hn]
  rw [hshift, hshift, h]

/-- Two addresses of one page agree above its offset. -/
theorem shiftRight_of_pageBase {z : PageSize} (h : pageBase z g' = pageBase z g) : g' >>> z.offBits = g >>> z.offBits := by
  have hback (x : Word64) : x >>> z.offBits = pageBase z x >>> z.offBits := by
    apply BitVec.eq_of_toNat_eq
    have hle : x.toNat / 2 ^ z.offBits * 2 ^ z.offBits < 2 ^ 64 := (Nat.div_mul_le_self _ _).trans_lt x.isLt
    simp only [pageBase, BitVec.toNat_shiftLeft, BitVec.toNat_ushiftRight, Nat.shiftRight_eq_div_pow, Nat.shiftLeft_eq,
      Nat.mod_eq_of_lt hle, Nat.mul_div_cancel _ (Nat.two_pow_pos z.offBits)]
  rw [hback, h, ← hback]

/-- A field below bit 48 is one of the address's 48 bits (40_request_pipeline R151). -/
theorem extractLsb'_va48 {lo len : Nat} (h : lo + len ≤ 48) (g : Word64) : (va48 g).extractLsb' lo len = g.extractLsb' lo len := by
  apply BitVec.eq_of_getLsbD_eq
  intro i hi
  simp only [BitVec.getLsbD_extractLsb', va48, BitVec.getLsbD_setWidth, Nat.zero_add]
  have h48 : lo + i < 48 := by omega
  have h64 : lo + i < 64 := by omega
  simp [hi, h48, h64]

theorem extractLsb'_va32 {lo len : Nat} (h : lo + len ≤ 32) (g : Word64) : (va32 g).extractLsb' lo len = g.extractLsb' lo len := by
  apply BitVec.eq_of_getLsbD_eq
  intro i hi
  simp only [BitVec.getLsbD_extractLsb', va32, BitVec.getLsbD_setWidth, Nat.zero_add]
  have h32 : lo + i < 32 := by omega
  have h64 : lo + i < 64 := by omega
  simp [hi, h32, h64]

theorem va48_va48 (g : Word64) : va48 (va48 g) = va48 g := by
  rw [va48, extractLsb'_va48 (by decide), va48]

theorem va32_va32 (g : Word64) : va32 (va32 g) = va32 g := by
  rw [va32, extractLsb'_va32 (by decide), va32]

end Fields

end Sys2Proof.Machine

/-! # The rules' walk, cut at each entry it reads

The pseudocode of 43_ppgtt R218 and 41_trtt R175 reads an entry and goes on with its value. Each function here is what it goes on with; the
walk is the composition (`rulePdp_eq`, `ruleTranslate_tile` and their like), so that the machine's walk can be compared entry by entry. -/

namespace Sys2Proof.Machine

section Rules

variable {s : State} {c : CtxId} {g g' gva a : Word64} {r : TrRegs} {w : Bool} {n : Nat}

/-! ## Reads -/

/-- A read of the rules and what its value leads to. -/
def ruleThen (x : Except Translation Word64) (f : Word64 → Translation) : Translation :=
  match x with
  | .error o => o
  | .ok e => f e

/-- A table word at a physical address: it has no value while it is written piecewise (20_memory R79). -/
def ruleWord (s : State) (sp : Space) (pa : Word64) (n : Nat) (f : Nat → Translation) : Translation :=
  if s.halfWritten sp pa.toNat n then .unsettled else f (s.physRead sp pa n)

theorem ruleThen_ruleEntry_none {table : BitVec 52} {k : BitVec 9} {f : Word64 → Translation}
    (h : s.sl c (table ++ k ++ (0 : BitVec 3)) = none) :
    ruleThen (ruleEntry s c table k) f = .refused .nestedTranslationUnmodelled := by
  rw [ruleEntry, h]
  rfl

theorem ruleEntry_of_whole {table : BitVec 52} {k : BitVec 9} {pa : Word64} (h : s.sl c (table ++ k ++ (0 : BitVec 3)) = some pa)
    (hwhole : s.halfWritten .system pa.toNat 8 = false) : ruleEntry s c table k = .ok (BitVec.ofNat 64 (s.physRead .system pa 8)) := by
  rw [ruleEntry, h]
  exact if_neg (by rw [hwhole]; decide)

theorem ruleThen_ruleEntry_some {table : BitVec 52} {k : BitVec 9} {pa : Word64} {f : Word64 → Translation}
    (h : s.sl c (table ++ k ++ (0 : BitVec 3)) = some pa) :
    ruleThen (ruleEntry s c table k) f = ruleWord s .system pa 8 fun e => f (BitVec.ofNat 64 e) := by
  simp only [ruleEntry, ruleWord, h]
  split <;> rfl

/-! ## The PPGTT -/

/-- A 4 KB page table's entry (43_ppgtt R222). -/
def pt4kEntry (s : State) (c : CtxId) (g : Word64) (w : Bool) (e : Word64) : Translation :=
  if e.getLsbD 0 then ruleLeaf s c e (frameOf s.cfg e ++ g.extractLsb' 0 12) (w && e.getLsbD 1) false
  else .notPresent .pt (va48 g)

/-- A 64 KB page table's entry (43_ppgtt R223). -/
def pt64kEntry (s : State) (c : CtxId) (g : Word64) (w : Bool) (e : Word64) : Translation :=
  if e.getLsbD 0 then
    ruleLeaf s c e ((belowHaw s.cfg e).extractLsb' 16 48 ++ g.extractLsb' 0 16) (w && e.getLsbD 1) (e.getLsbD 11)
  else .notPresent .pt (va48 g)

/-- A page directory's entry (43_ppgtt R221, R224). -/
def pdEntry (s : State) (c : CtxId) (g : Word64) (w : Bool) (e : Word64) : Translation :=
  if e.getLsbD 0 then
    if isLeaf s.cfg .pd e then
      ruleLeaf s c e ((belowHaw s.cfg e).extractLsb' 21 43 ++ g.extractLsb' 0 21) (w && e.getLsbD 1) (e.getLsbD 11)
    else rulePt s c e g (w && e.getLsbD 1)
  else .notPresent .pd (va48 g)

/-- A page-directory-pointer entry (43_ppgtt R220, R225). -/
def pdpEntry (s : State) (c : CtxId) (g : Word64) (w : Bool) (e : Word64) : Translation :=
  if e.getLsbD 0 then
    if isLeaf s.cfg .pdp e then
      ruleLeaf s c e ((belowHaw s.cfg e).extractLsb' 30 34 ++ g.extractLsb' 0 30) (w && e.getLsbD 1) (e.getLsbD 11)
    else rulePd s c e g (w && e.getLsbD 1)
  else .notPresent .pdp (va48 g)

/-- A PML4 entry (43_ppgtt R219). -/
def pml4Entry (s : State) (c : CtxId) (g : Word64) (e : Word64) : Translation :=
  if e.getLsbD 0 then rulePdp s c e g (e.getLsbD 1) else .notPresent .pml4 (va48 g)

theorem rulePt_of_ind64 {e : Word64} (h : e.getLsbD 11 = true) :
    rulePt s c e g w = ruleThen (ruleEntry s c (frameOf s.cfg e) (idx1k64 g)) (pt64kEntry s c g w) := by
  rw [rulePt, if_pos h]
  unfold idx1k64
  cases ruleEntry s c (frameOf s.cfg e) (g.extractLsb' 16 5 ++ (0 : BitVec 4)) <;> rfl

theorem rulePt_of_not_ind64 {e : Word64} (h : e.getLsbD 11 = false) :
    rulePt s c e g w = ruleThen (ruleEntry s c (frameOf s.cfg e) (idx1 g)) (pt4kEntry s c g w) := by
  rw [rulePt, if_neg (by rw [h]; decide)]
  unfold idx1
  cases ruleEntry s c (frameOf s.cfg e) (g.extractLsb' 12 9) <;> rfl

theorem rulePd_eq (e : Word64) :
    rulePd s c e g w = ruleThen (ruleEntry s c (frameOf s.cfg e) (idx2 g)) (pdEntry s c g w) := by
  unfold rulePd idx2
  cases ruleEntry s c (frameOf s.cfg e) (g.extractLsb' 21 9) <;> rfl

theorem rulePdp_eq (e : Word64) :
    rulePdp s c e g w = ruleThen (ruleEntry s c (frameOf s.cfg e) (idx3 g)) (pdpEntry s c g w) := by
  unfold rulePdp idx3
  cases ruleEntry s c (frameOf s.cfg e) (g.extractLsb' 30 9) <;> rfl

theorem rulePpgtt_of_walkable (h : walkable s c) (g : Word64) :
    rulePpgtt s c g = ruleThen (rulePml4 s c (idx4 g)) (pml4Entry s c g) := by
  obtain ⟨halign, -, hsl⟩ := h
  have hnested : ((s.ctx c).neste && !s.cfg.slSupplied) = false := by
    obtain h | h := hsl <;> simp [h]
  rw [rulePpgtt, if_neg (not_not.2 halign), hnested, if_neg (by decide)]
  unfold idx4
  cases rulePml4 s c (g.extractLsb' 39 9) <;> rfl

theorem rulePt_va48 (e : Word64) : rulePt s c e (va48 g) w = rulePt s c e g w := by
  simp (disch := decide) only [rulePt, extractLsb'_va48, va48_va48]

theorem rulePd_va48 (e : Word64) : rulePd s c e (va48 g) w = rulePd s c e g w := by
  simp (disch := decide) only [rulePd, rulePt_va48, extractLsb'_va48, va48_va48]

theorem rulePdp_va48 (e : Word64) : rulePdp s c e (va48 g) w = rulePdp s c e g w := by
  simp (disch := decide) only [rulePdp, rulePd_va48, extractLsb'_va48, va48_va48]

/-- PPGTT_Walk reads the address's 48 bits (40_request_pipeline R151). -/
theorem rulePpgtt_va48 (s : State) (c : CtxId) (g : Word64) : rulePpgtt s c (va48 g) = rulePpgtt s c g := by
  simp (disch := decide) only [rulePpgtt, rulePdp_va48, extractLsb'_va48, va48_va48]

theorem ruleGgtt_va32 (s : State) (g : Word64) : ruleGgtt s (va32 g) = ruleGgtt s g := by
  simp (disch := decide) only [ruleGgtt, extractLsb'_va32, va32_va32]

/-- The rules' leaf is an outcome that the TLB can hold. -/
theorem ruleLeaf_eq (e : Word64) (w lm : Bool) : ruleLeaf s c e a w lm = leafOutcome s c a (pageSpace s.cfg lm) (e.getLsbD 9) w := rfl

/-! ## TR-TT -/

/-- A table read of TR-TT, by the PPGTT's outcome for its address (41_trtt R176). -/
def ruleRead (s : State) (n : Nat) (f : Nat → Translation) : Translation → Translation
  | .phys sp pa _ => ruleWord s sp pa n f
  | .nullPage _ => .refused .trttTableInNullPage
  | tr => tr

/-- TRTableRead and what its value leads to (41_trtt R176). -/
def ruleTable (s : State) (c : CtxId) (r : TrRegs) (a : Word64) (n : Nat) (f : Nat → Translation) : Translation :=
  match trDetect r a with
  | none => .refused .trvamvUnsupported
  | some true => .refused .trttTableInTrva
  | some false => ruleRead s n f (rulePpgtt s c a)

/-- What a request's tile leads to (40_request_pipeline R151). -/
def ruleTile (s : State) (c : CtxId) (gva : Word64) (x : Except Translation TileOut) : Translation :=
  match x with
  | .error o => o
  | .ok .null => .nullTile
  | .ok .invalid => .invalidTile
  | .ok (.mapped e) => rulePpgtt s c ((0 : BitVec 16) ++ e ++ gva.extractLsb' 0 16)

/-- The flags of an L3 or L2 entry, and what a pointer leads to (41_trtt R178). -/
def ruleFlagged (p : Params) (e : Nat) (below : Except Translation TileOut) : Except Translation TileOut :=
  match ruleFlags p e with
  | .error o => .error o
  | .ok (some o) => .ok o
  | .ok none => below

/-- The value of an L1 entry (41_trtt R179, R189). -/
def ruleL1Value (p : Params) (r : TrRegs) (e : Nat) : Except Translation TileOut :=
  if BitVec.ofNat 32 e = r.invdet then .ok .invalid
  else if BitVec.ofNat 32 e = r.nulldet then .ok .null
  else if p.dualContext && e.testBit 31 then .error (.refused .trttDualContextBit47)
  else .ok (.mapped (BitVec.ofNat 32 e))

/-- An entry of a TR-TT table, for a request's address (41_trtt R172 to R175). -/
def trEntry (s : State) (c : CtxId) (r : TrRegs) (gva : Word64) : TrLevel → Nat → Translation
  | .l3, e => ruleTile s c gva (ruleFlagged s.cfg e (ruleL2 s c r e gva))
  | .l2, e => ruleTile s c gva (ruleFlagged s.cfg e (ruleL1 s c r e gva))
  | .l1, e => ruleTile s c gva (ruleL1Value s.cfg r e)

/-- What the outcome of the PPGTT's walk means for the request: its own address, or that of a table entry (41_trtt R176). -/
def afterPpgtt (s : State) (c : CtxId) (r : TrRegs) (gva : Word64) : Stage → Translation → Translation
  | .data => id
  | .table l => ruleRead s (entryBytes l.pos) (trEntry s c r gva l)

/-- A table read of TR-TT and the rest of the walk, as one outcome of the request. -/
theorem ruleTile_tableRead {x : Except Translation TileOut} {f : Nat → Except Translation TileOut}
    (herror : ∀ o, ruleTableRead s c r a n = .error o → x = .error o) (hok : ∀ e, ruleTableRead s c r a n = .ok e → x = f e) :
    ruleTile s c gva x = ruleTable s c r a n fun e => ruleTile s c gva (f e) := by
  unfold ruleTableRead at herror hok
  unfold ruleTable
  cases hdetect : trDetect r a with
  | none =>
    simp only [hdetect] at herror
    rw [herror _ rfl]
    rfl
  | some b =>
    cases b with
    | true =>
      simp only [hdetect] at herror
      rw [herror _ rfl]
      rfl
    | false =>
      simp only [hdetect] at herror hok
      dsimp only
      cases hppgtt : rulePpgtt s c a with
      | phys sp pa w =>
        simp only [hppgtt] at herror hok
        simp only [ruleRead, ruleWord]
        cases hhalf : s.halfWritten sp pa.toNat n with
        | true => rw [herror _ (by rw [hhalf]; rfl)]; rfl
        | false => rw [hok _ (by rw [hhalf]; rfl)]; rfl
      | _ =>
        simp only [hppgtt] at herror
        rw [herror _ rfl]
        rfl

theorem ruleTile_ruleL1 (e : Nat) : ruleTile s c gva (ruleL1 s c r e gva) =
    ruleTable s c r ((0 : BitVec 16) ++ (BitVec.ofNat 64 e).extractLsb' 12 36 ++ gva.extractLsb' 16 10 ++ (0 : BitVec 2)) 4
      (trEntry s c r gva .l1) := by
  refine ruleTile_tableRead (f := ruleL1Value s.cfg r) (fun o h => ?_) fun e h => ?_ <;>
  · rw [ruleL1, h] <;> rfl

theorem ruleTile_ruleL2 (e : Nat) : ruleTile s c gva (ruleL2 s c r e gva) =
    ruleTable s c r ((0 : BitVec 16) ++ (BitVec.ofNat 64 e).extractLsb' 12 36 ++ gva.extractLsb' 26 9 ++ (0 : BitVec 3)) 8
      (trEntry s c r gva .l2) := by
  refine ruleTile_tableRead (f := fun e => ruleFlagged s.cfg e (ruleL1 s c r e gva)) (fun o h => ?_) fun e h => ?_ <;>
  · rw [ruleL2, h] <;> rfl

theorem ruleTile_ruleTrtt (hgpa : trVirtual r = true) (hne : r.nulldet ≠ r.invdet) : ruleTile s c gva (ruleTrtt s c r gva) =
    ruleTable s c r ((0 : BitVec 16) ++ r.l3ptr.extractLsb' 16 32 ++ (0 : BitVec 4) ++ gva.extractLsb' 35 9 ++ (0 : BitVec 3)) 8
      (trEntry s c r gva .l3) := by
  have hbit : r.trtte.getLsbD 1 = true := hgpa
  refine ruleTile_tableRead (f := fun e => ruleFlagged s.cfg e (ruleL2 s c r e gva)) (fun o h => ?_) fun e h => ?_ <;>
  · rw [ruleTrtt, if_neg (not_not.2 hbit), if_neg hne, h] <;> rfl

/-- A request of a PPGTT context, by the detection of its address (40_request_pipeline R151). -/
theorem ruleTranslate_ppgtt {e : Engine} (hkind : (s.ctx c).kind = .ppgtt48)
    (hout : trActive s.cfg s.trbypass (s.ctx c).tr = false ∨ trDetect (s.ctx c).tr gva = some false) :
    ruleTranslate s e c gva = rulePpgtt s c gva := by
  simp only [ruleTranslate, hkind]
  obtain h | h := hout
  · rw [h, if_neg (by decide)]
  · rw [h]
    split <;> rfl

theorem ruleTranslate_tile {e : Engine} (hkind : (s.ctx c).kind = .ppgtt48) (hactive : trActive s.cfg s.trbypass (s.ctx c).tr = true)
    (hin : trDetect (s.ctx c).tr gva = some true) (he : trEngine e = true) :
    ruleTranslate s e c gva = ruleTile s c gva (ruleTrtt s c (s.ctx c).tr gva) := by
  have hengine : ¬ (e ≠ .render ∧ e ≠ .posh) := by
    cases e <;> simp [trEngine] at he ⊢
  simp only [ruleTranslate, hkind, hactive, hin, if_true, if_neg hengine]
  cases ruleTrtt s c (s.ctx c).tr gva with
  | error o => rfl
  | ok o => cases o <;> rfl

end Rules

end Sys2Proof.Machine

/-! # The machine's walk against the rules' walk

`Meets` says that an outcome of the machine, its walk run on, serves the request as a translation of the rules says. It holds of each entry
if it holds of what the entry leads to; what the TLB and the PML4 cache hold agrees with the tables throughout (`Agrees`). -/

namespace Sys2Proof.Machine

section Meets

variable {s0 s t u : State} {q : Request} {tr : Translation} {o : Out} {wk : Walk} {c : CtxId}

/-! ## Running an outcome -/

/-- An outcome with the walk it may have left open run on, at most `k` entries. -/
def runOut (k : Nat) (o : Out) : Out :=
  match o with
  | .next t => runWalk k t
  | .fault f => .fault f
  | .refused r => .refused r

theorem finish_eq_runOut (o : Out) : finish o = runOut walkBound o := by cases o <;> rfl

theorem runWalk_of_ended (h : t.walk = none) (k : Nat) : runWalk k t = .next t := by
  cases k with
  | zero => rfl
  | succ k => simp only [runWalk, h]

theorem runWalk_succ (h : t.walk = some wk) (k : Nat) : runWalk (k + 1) t = runOut k (walkStep wk t) := by
  simp only [runWalk, h]
  cases walkStep wk t <;> rfl

/-- A request that the rules settle has ended. -/
theorem served_walk (h : served s q (.next t) tr) (htr : tr ≠ .unsettled) : t.walk = none := by
  have hhalts {x : Cause} (h : halts s q x (.next t)) : t.walk = none := by
    obtain ⟨_, ⟨⟩, hwalk, -⟩ := h
    exact hwalk
  unfold served at h
  split at h
  · split at h
    · obtain ⟨_, ⟨⟩, hwalk, -⟩ := h
      exact hwalk
    · split at h
      · exact hhalts h
      · split at h
        · cases h
        · obtain ⟨_, ⟨⟩, hwalk, -⟩ := h
          exact hwalk
  · split at h
    · exact hhalts h
    · obtain ⟨_, ⟨⟩, hwalk, -⟩ := h
      exact hwalk
  · obtain ⟨_, ⟨⟩, hwalk, -⟩ := h
    exact hwalk
  · obtain ⟨_, ⟨⟩, hwalk, -⟩ := h
    exact hwalk
  · exact hhalts h
  · cases h
  · exact absurd rfl htr

/-- The outcome, run on for as long as it takes, serves the request as the translation says, from `s`. -/
def Meets (s : State) (q : Request) (tr : Translation) (o : Out) : Prop :=
  ∀ k, Advances k o → served s q (runOut k o) tr

theorem Meets.unsettled : Meets s q .unsettled o := fun _ _ => trivial

theorem Meets.of_served (h : served s q o tr) : Meets s q tr o := by
  intro k _
  by_cases htr : tr = .unsettled
  · subst htr
    trivial
  · cases o with
    | next t =>
      have hrun : runOut k (.next t) = .next t := runWalk_of_ended (served_walk h htr) k
      rw [hrun]
      exact h
    | fault f => exact h
    | refused r => exact h

/-- An open walk meets what its next entry meets. -/
theorem Meets.step (hwalk : t.walk = some wk) (h : Meets s q tr (walkStep wk t)) : Meets s q tr (.next t) := by
  intro k hk
  obtain hended | ⟨wk', hwk', hleft⟩ := hk t rfl
  · exact absurd hended.1 (by rw [hwalk]; exact Option.some_ne_none wk)
  · obtain rfl : wk = wk' := Option.some.inj (hwalk.symm.trans hwk')
    obtain ⟨k, rfl⟩ : ∃ j, k = j + 1 := ⟨k - 1, by have := entriesLeft_pos wk.pos wk.stage; omega⟩
    show served s q (runWalk (k + 1) t) tr
    rw [runWalk_succ hwalk]
    exact h k (walkStep_advances hwalk (Nat.sub_le_of_le_add hleft))

theorem Meets.refuseWalk (hs : wk.spurious = false) (why : Refusal) : Meets s q (.refused why) (refuseWalk wk why t) :=
  .of_served (refuseWalk_of_not_spurious hs why t)

theorem runRequest_served (hadm : admitted t q.ctx q.gva q.n) (h : Meets s q tr (beginTranslate q t)) :
    served s q (runRequest q t) tr := by
  rw [runRequest_of_admitted hadm, finish_eq_runOut]
  exact h walkBound (beginTranslate_advances q)

/-! ## What is cached agrees with the tables -/

/-- An element of the TLB says what the tables of `s` say. -/
def TlbEntry.Agrees (e : TlbEntry) (s : State) (c : CtxId) : Prop :=
  ∀ va, pageBase e.size va = e.vbase →
    (if e.global then ruleGgtt s va else rulePpgtt s c va) = e.out.at s c e.global e.nested e.size va

/-- From `s` to `t` the walker has looked things up, and what its TLB and PML4 cache hold in `t` agrees with the tables of `s`. -/
structure Agrees (s : State) (c : CtxId) (t : State) : Prop where
  looks : Looks c s t
  tlb : ∀ e ∈ (t.ctx c).caches.tlb, e.Agrees s c
  keeps : KeepsPml4 c s t
  pml4 : ∀ x, (t.ctx c).caches.pml4c = some x → ∀ k,
    rulePml4 s c k = .error .unsettled ∨ rulePml4 s c k = .ok (x.entries.getD k.toNat 0)

namespace Agrees

/-- Looking up without filling the TLB or the PML4 cache keeps the agreement. -/
theorem mono (h : Agrees s c t) (hl : Looks c t u) (htlb : (u.ctx c).caches.tlb = (t.ctx c).caches.tlb)
    (hpml4 : (u.ctx c).caches.pml4c = (t.ctx c).caches.pml4c) : Agrees s c u where
  looks := h.looks.trans hl
  tlb := by rw [htlb]; exact h.tlb
  keeps := h.keeps.trans (.of_pml4c hpml4)
  pml4 := by rw [hpml4]; exact h.pml4

theorem setWalk (h : Agrees s c t) (w : Option Walk) : Agrees s c { t with walk := w } :=
  h.mono (.setWalk ..) (by rw [ctx_congr (t := { t with walk := w }) (s := t) rfl rfl c])
    (by rw [ctx_congr (t := { t with walk := w }) (s := t) rfl rfl c])

theorem draw (h : Agrees s c t) (d : Nat) : Agrees s c { t with draws := d } :=
  h.mono (.draw ..) (by rw [ctx_congr (t := { t with draws := d }) (s := t) rfl rfl c])
    (by rw [ctx_congr (t := { t with draws := d }) (s := t) rfl rfl c])

theorem choose {α : Type} (h : Agrees s c t) (l : List α) : Agrees s c (t.choose l).2 := by
  unfold State.choose
  split
  · exact h
  · exact h.draw _

theorem fillTrTlb (h : Agrees s c t) (e : TrTlbEntry) : Agrees s c (t.fillTrTlb c e) := by
  obtain ⟨_, hctx, -⟩ := ctx_fillTrTlb_same t c e
  exact h.mono (.fillTrTlb ..) (by rw [hctx]) (by rw [hctx])

theorem fillTlb (h : Agrees s c t) {e : TlbEntry} (he : e.Agrees s c) : Agrees s c (t.fillTlb c e) where
  looks := h.looks.trans (.fillTlb ..)
  tlb := by
    obtain ⟨l, hctx, hl⟩ := ctx_fillTlb_same t c e
    rw [hctx]
    intro x hx
    obtain rfl | hx := (hl x).1 hx
    · exact he
    · exact h.tlb x hx
  keeps := h.keeps.trans (.of_pml4c (fillTlb_pml4c ..))
  pml4 := by rw [fillTlb_pml4c]; exact h.pml4

theorem broken (h : Agrees s c t) (hb : s.broken c = false) : t.broken c = false := h.looks.broken.trans hb

theorem halfWritten (h : Agrees s c t) (sp : Space) (a n : Nat) : t.halfWritten sp a n = s.halfWritten sp a n := by
  rw [State.halfWritten, State.halfWritten, State.writesAll, State.writesAll, h.looks.hist]

theorem physRead (h : Agrees s c t) (sp : Space) (pa : Word64) (n : Nat) : t.physRead sp pa n = s.physRead sp pa n :=
  Looks.physRead (q := { id := 0, agent := .render, ctx := c, gva := 0, n := 0, value := none }) h.looks sp pa n

theorem tableWord (h : Agrees s c t) (hb : s.broken c = false) {sp : Space} {pa : Word64} {n : Nat}
    (hwhole : s.halfWritten sp pa.toNat n = false) (d : Nat) : t.tableWord c sp pa n d = s.physRead sp pa n := by
  simp [State.tableWord, State.torn, h.broken hb, h.halfWritten, hwhole, h.physRead]

end Agrees

/-! ## The PML4 cache -/

/-- The second level keeps an entry's place in its page (43_ppgtt R239). -/
theorem sl_tableEntry {a page : Word64} (halign : a.extractLsb' 0 12 = 0) (hpage : s.sl c a = some page) (k : BitVec 9) :
    s.sl c (a.extractLsb' 12 52 ++ k ++ (0 : BitVec 3)) = some (page + BitVec.ofNat 64 (8 * k.toNat)) := by
  have hlow : a.toNat % 4096 = 0 := by simpa using congrArg BitVec.toNat halign
  have hk := k.isLt
  have hframe : (a.extractLsb' 12 52 ++ k ++ (0 : BitVec 3)).extractLsb' 12 52 = a.extractLsb' 12 52 := by
    apply BitVec.eq_of_toNat_eq
    simp only [BitVec.extractLsb'_toNat, toNat_append_eq, BitVec.ofNat_eq_ofNat, BitVec.toNat_ofNat, Nat.shiftRight_eq_div_pow]
    omega
  have hoffset : ((a.extractLsb' 12 52 ++ k ++ (0 : BitVec 3)).extractLsb' 0 12).toNat = 8 * k.toNat := by
    simp only [BitVec.extractLsb'_toNat, toNat_append_eq, BitVec.ofNat_eq_ofNat, BitVec.toNat_ofNat, Nat.shiftRight_eq_div_pow]
    omega
  unfold State.sl State.slAs at hpage ⊢
  rw [hframe]
  split at hpage
  · next hn =>
    cases hpage
    rw [if_pos hn]
    congr 1
    apply BitVec.eq_of_toNat_eq
    simp only [toNat_append_eq, BitVec.extractLsb'_toNat, BitVec.toNat_add, BitVec.ofNat_eq_ofNat, BitVec.toNat_ofNat,
      Nat.shiftRight_eq_div_pow]
    have ha := a.isLt
    omega
  · next hn =>
    rw [if_neg hn]
    split at hpage
    · cases hpage
    · next hsup =>
      cases hpage
      rw [if_neg hsup]
      congr 1
      apply BitVec.eq_of_toNat_eq
      rw [BitVec.toNat_add, toNat_belowHaw, toNat_belowHaw, toNat_append_eq, toNat_append_eq, halign, hoffset]
      have hf := (Config.slFrame c (a.extractLsb' 12 52)).isLt
      cases s.cfg.haw <;>
      · simp only [Haw.bits, BitVec.ofNat_eq_ofNat, BitVec.toNat_ofNat]
        omega

theorem pml4Entries_getD (t : State) (c : CtxId) (page : Word64) (k : BitVec 9) : (t.pml4Entries c page).getD k.toNat 0 =
    BitVec.ofNat 64 (t.tableWord c .system (page + BitVec.ofNat 64 (8 * k.toNat)) 8 (t.draws + k.toNat)) := by
  have hk := k.isLt
  simp [State.pml4Entries, List.getD_eq_getElem?_getD, hk]

/-- The PML4 cache is filled with what memory holds, where it has a value (43_ppgtt R240). -/
theorem Agrees.fillPml4 (h : Agrees s c t) (hb : s.broken c = false) (halign : (s.ctx c).pml4.extractLsb' 0 12 = 0) {page : Word64}
    (hpage : s.sl c (s.ctx c).pml4 = some page) : Agrees s c (t.fillPml4 c page) where
  looks := h.looks.trans (.fillPml4 ..)
  tlb := by rw [ctx_fillPml4_same]; exact h.tlb
  keeps := h.keeps.trans (fillPml4_keepsPml4 t c c page)
  pml4 := by
    intro x hx k
    rw [ctx_fillPml4_same] at hx
    cases hcached : (t.ctx c).caches.pml4c with
    | some y =>
      rw [hcached] at hx
      exact h.pml4 x (hcached.trans hx) k
    | none =>
      rw [hcached] at hx
      obtain rfl := Option.some.inj hx
      have hnone : (s.ctx c).caches.pml4c = none := by
        by_contra hsome
        obtain ⟨y, hy⟩ := Option.ne_none_iff_exists'.1 hsome
        rw [h.keeps y hy] at hcached
        cases hcached
      have hsl := sl_tableEntry halign hpage k
      simp only [Option.getD_none, rulePml4, hnone, pml4Entries_getD, ruleEntry, hsl]
      cases hhalf : s.halfWritten .system (page + BitVec.ofNat 64 (8 * k.toNat)).toNat 8 with
      | true => exact .inl rfl
      | false => exact .inr (by rw [h.tableWord hb hhalf]; rfl)

end Meets

end Sys2Proof.Machine

/-! # The PPGTT's walk against the rules'

From the PML4 entry to the leaf each entry of the machine's walk does what the rules' walk does with the same word, for a request's own
address and for that of a TR-TT table entry alike. What differs is what a finished translation leads to: the hypothesis `Finishes`. -/

namespace Sys2Proof.Machine

/-- The walker serves a request, its TR-TT registers those of `r`: no cycle is spurious and no entry is forced. -/
structure Serves (q : Request) (r : TrRegs) (wk : Walk) : Prop where
  req : wk.req = q
  regs : wk.regs = r
  live : wk.spurious = false
  unforced : wk.forced = none

/-- The walker is on its way to what a stage serves, with a TLB and a PML4 cache that agree with the tables of `s`. -/
structure Walking (s : State) (q : Request) (r : TrRegs) (st : Stage) (t : State) (wk : Walk) : Prop extends Serves q r wk where
  agrees : Agrees s q.ctx t
  stage : wk.stage = st
  low : va48 wk.va = wk.va

/-- What the rules say of the request once the PPGTT has translated for a stage. -/
def ruleAfter (s : State) (q : Request) (r : TrRegs) (st : Stage) (tr : Translation) : Translation :=
  afterPpgtt s q.ctx r q.gva st tr

/-- A finished translation of the stage's address does what the rules say of its outcome. -/
def Finishes (s : State) (q : Request) (r : TrRegs) (st : Stage) : Prop :=
  ∀ (t : State) (wk : Walk) (z : PageSize) (out : Mapping) (nested : Bool) (deps : List Dep), Walking s q r st t wk →
    Meets s q (ruleAfter s q r st (out.at s q.ctx false nested z wk.va)) (ppgttDone wk z out nested deps t)

/-- A PPGTT walk of the stage's address does what the rules say of its outcome. -/
def Begins (s : State) (q : Request) (r : TrRegs) (st : Stage) : Prop :=
  ∀ (t : State) (wk : Walk), Walking s q r st t wk → Meets s q (ruleAfter s q r st (rulePpgtt s q.ctx wk.va)) (beginPpgtt wk t)

section Starts

variable {s : State} {c : CtxId} {g : Word64}

/-- What the TLB gives matches the address. -/
theorem lookupTlb_some {global : Bool} {e : TlbEntry} (h : (s.lookupTlb c global g).1 = some e) :
    e ∈ (s.ctx c).caches.tlb ∧ e.global = global ∧ e.vbase = pageBase e.size g := by
  have hmem : e ∈ (s.ctx c).caches.tlb.filter fun e => e.global == global && e.vbase == pageBase e.size g := by
    unfold State.lookupTlb State.choose at h
    split at h
    · cases h
    · exact List.mem_of_getElem? h
  simpa using hmem

/-- The second level is missing for one address as for every other. -/
theorem neste_of_sl_none {a : Word64} (h : s.sl c a = none) : ((s.ctx c).neste && !s.cfg.slSupplied) = true := by
  unfold State.sl State.slAs at h
  cases hn : (s.ctx c).neste <;> cases hs : s.cfg.slSupplied <;> simp [hn, hs] at h ⊢

theorem neste_of_sl_some {a pa : Word64} (h : s.sl c a = some pa) : (s.ctx c).neste = false ∨ s.cfg.slSupplied = true := by
  unfold State.sl State.slAs at h
  cases hn : (s.ctx c).neste <;> cases hs : s.cfg.slSupplied <;> simp [hn, hs] at h ⊢

theorem rulePpgtt_of_sl_none (halign : (s.ctx c).pml4.extractLsb' 0 12 = 0) {a : Word64} (h : s.sl c a = none) :
    rulePpgtt s c g = .refused .nestedTranslationUnmodelled := by
  rw [rulePpgtt, if_neg (not_not.2 halign), if_pos (neste_of_sl_none h)]

end Starts

section Ppgtt

variable {s t : State} {q : Request} {r : TrRegs} {st : Stage} {wk : Walk} {e : Word64}

theorem ruleAfter_notPresent (l : Level) (a : Word64) : ruleAfter s q r st (.notPresent l a) = .notPresent l a := by cases st <;> rfl

theorem ruleAfter_refused (why : Refusal) : ruleAfter s q r st (.refused why) = .refused why := by cases st <;> rfl

theorem ruleAfter_unsettled : ruleAfter s q r st .unsettled = .unsettled := by cases st <;> rfl

/-! ## Entries in memory -/

/-- A walk about to read a table word meets what the word's entry meets. -/
theorem readWord_meets (hb : s.broken q.ctx = false) (h : Agrees s q.ctx t) (hserves : Serves q r wk) (hwalk : t.walk = some wk)
    (hpos : wk.pos ≠ .pml4) {f : Nat → Translation}
    (hentry : Meets s q (f (s.physRead wk.space wk.pa (entryBytes wk.pos)))
      (execEntry (decodeEntry s.cfg wk.pos (BitVec.ofNat 64 (s.physRead wk.space wk.pa (entryBytes wk.pos)))) t)) :
    Meets s q (ruleWord s wk.space wk.pa (entryBytes wk.pos) f) (.next t) := by
  unfold ruleWord
  split
  · exact .unsettled
  · next hwhole =>
    have hfetch : fetchWord wk t = (BitVec.ofNat 64 (s.physRead wk.space wk.pa (entryBytes wk.pos)), t) := by
      rw [← h.physRead]
      refine fetchWord_settled hserves.unforced (fun hp => absurd hp hpos) (.inr ⟨?_, ?_⟩)
      · rw [hserves.req]
        exact h.broken hb
      · rw [h.halfWritten]
        exact Bool.eq_false_iff.2 hwhole
    refine .step hwalk ?_
    rw [walkStep, fetch, hfetch, h.looks.cfg]
    exact hentry

theorem notPresent_meets (hr : ∀ x, recoverable s.cfg x = true) (h : Walking s q r st t wk) (hwalk : t.walk = some wk) {l : Level}
    (hl : levelOf wk.pos = some l) : Meets s q (ruleAfter s q r st (.notPresent l (va48 wk.va))) (execEntry .notPresent t) := by
  have hexec : execEntry .notPresent t = raiseFault wk (.notPresent l wk.va) t := by
    simp only [execEntry, execNotPresent, hwalk, hl]
  rw [ruleAfter_notPresent, h.low, hexec]
  have hq := h.req
  subst hq
  exact .of_served (raiseFault_halts h.live (hr _) h.agrees.looks)

/-! ## Descents and leaves -/

theorem ruleAfter_ruleWord (sp : Space) (pa : Word64) (n : Nat) (f : Nat → Translation) :
    ruleAfter s q r st (ruleWord s sp pa n f) = ruleWord s sp pa n fun e => ruleAfter s q r st (f e) := by
  unfold ruleWord
  split
  · exact ruleAfter_unsettled
  · rfl

theorem Agrees.neste {c : CtxId} (h : Agrees s c t) : (t.ctx c).neste = (s.ctx c).neste := by
  obtain ⟨_, hctx⟩ := h.looks.context
  rw [hctx]

theorem Agrees.sl {c : CtxId} (h : Agrees s c t) (a : Word64) : t.sl c a = s.sl c a := by
  rw [State.sl, State.sl, h.neste, slAs_congr h.looks.cfg]

@[simp] theorem noted_forced (wk : Walk) : wk.noted.forced = wk.forced := by unfold Walk.noted; split <;> rfl

/-- A pointer entry meets what the next level's entry meets. -/
theorem descend_meets (hb : s.broken q.ctx = false) (h : Walking s q r st t wk) {next : Pos} {k : BitVec 9} {x : Bool}
    {f : Word64 → Translation} (hnext : next ≠ .pml4) (hbytes : entryBytes next = 8)
    (hentry : ∀ (t' : State) (wk' : Walk) (e' : Word64), Walking s q r st t' wk' → t'.walk = some wk' → wk'.pos = next →
      wk'.va = wk.va → wk'.w = (wk.w && x) → ruleEntry s q.ctx (frameOf s.cfg e) k = .ok e' →
      Meets s q (ruleAfter s q r st (f e')) (execEntry (decodeEntry s.cfg next e') t')) :
    Meets s q (ruleAfter s q r st (ruleThen (ruleEntry s q.ctx (frameOf s.cfg e) k) f))
      (descend wk next (frameBase (frameField s.cfg e)) k x t) := by
  simp only [descend, entry8_frameField, h.req, h.agrees.sl]
  cases hsl : s.sl q.ctx (frameOf s.cfg e ++ k ++ (0 : BitVec 3)) with
  | none =>
    rw [ruleThen_ruleEntry_none hsl, ruleAfter_refused]
    exact .refuseWalk h.live _
  | some pa =>
    let wk' : Walk := { wk.noted with pos := next, space := .system, pa := pa, w := wk.w && x }
    have hserves : Serves q r wk' :=
      ⟨(noted_req wk).trans h.req, (noted_regs wk).trans h.regs, (noted_spurious wk).trans h.live, (noted_forced wk).trans h.unforced⟩
    have hva : wk'.va = wk.va := noted_va wk
    have hwalking : Walking s q r st { t with walk := some wk' } wk' :=
      ⟨hserves, h.agrees.setWalk _, (noted_stage wk).trans h.stage, by rw [hva, h.low]⟩
    rw [ruleThen_ruleEntry_some hsl, ruleAfter_ruleWord]
    by_cases hwhole : s.halfWritten .system pa.toNat 8 = true
    · rw [ruleWord, if_pos hwhole]
      exact .unsettled
    · rw [← hbytes]
      refine readWord_meets (wk := wk') hb hwalking.agrees hserves rfl hnext ?_
      refine hentry _ wk' _ hwalking rfl rfl hva rfl ?_
      rw [show entryBytes wk'.pos = 8 from hbytes]
      exact ruleEntry_of_whole hsl (Bool.eq_false_iff.2 hwhole)

/-- A leaf entry finishes the translation, and the TLB holds it for the whole page. -/
theorem leaf_meets (hfin : Finishes s q r st) (h : Walking s q r st t wk) {z : PageSize} {base : Word64} {sp : Space} {mt : BitVec 3}
    {f : LeafBits}
    (hpath : ∀ g : Word64, g >>> z.offBits = wk.va >>> z.offBits →
      rulePpgtt s q.ctx g = leafOutcome s q.ctx (pageAddr z base g) sp f.null (wk.w && f.rw)) :
    Meets s q (ruleAfter s q r st (leafOutcome s q.ctx (pageAddr z base wk.va) sp f.null (wk.w && f.rw)))
      (leaf wk z base sp mt f t) := by
  rw [leaf_eq, h.req, h.agrees.neste, ← leafMapping_at (mt := mt), ← noted_va wk]
  refine hfin _ _ _ _ _ _ ⟨⟨(noted_req wk).trans h.req, (noted_regs wk).trans h.regs, (noted_spurious wk).trans h.live,
    (noted_forced wk).trans h.unforced⟩, h.agrees.fillTlb fun va hva => ?_, (noted_stage wk).trans h.stage, by rw [noted_va, h.low]⟩
  show rulePpgtt s q.ctx va = _
  rw [hpath va (shiftRight_of_pageBase (hva.trans (by rw [noted_va])))]
  exact (leafMapping_at ..).symm

/-! ## The levels -/

variable (hfin : Finishes s q r st) (hr : ∀ x, recoverable s.cfg x = true) (hb : s.broken q.ctx = false)
include hfin hr

theorem pt4k_meets (h : Walking s q r st t wk) (hwalk : t.walk = some wk) (hpos : wk.pos = .pt4k)
    (hpath : ∀ g : Word64, g >>> 12 = wk.va >>> 12 → rulePpgtt s q.ctx g = pt4kEntry s q.ctx g wk.w e) :
    Meets s q (ruleAfter s q r st (pt4kEntry s q.ctx wk.va wk.w e)) (execEntry (decodeEntry s.cfg .pt4k e) t) := by
  have hat : t.walkAt .pt4k = some wk := walkAt_eq.2 ⟨hwalk, hpos⟩
  unfold pt4kEntry at hpath ⊢
  cases he : e.getLsbD 0 with
  | false =>
    rw [if_neg (by decide), decodeEntry, he]
    exact notPresent_meets hr h hwalk (by rw [hpos]; rfl)
  | true =>
    simp only [he, if_true, ruleLeaf_eq, ← pageAddr_k4] at hpath ⊢
    simp only [pageSpace, Bool.and_false, Bool.false_eq_true, if_false] at hpath ⊢
    simp only [decodeEntry, he, if_true, execEntry, execPte4kb, hat]
    exact leaf_meets hfin h hpath

theorem pt64k_meets (h : Walking s q r st t wk) (hwalk : t.walk = some wk) (hpos : wk.pos = .pt64k)
    (hpath : ∀ g : Word64, g >>> 16 = wk.va >>> 16 → rulePpgtt s q.ctx g = pt64kEntry s q.ctx g wk.w e) :
    Meets s q (ruleAfter s q r st (pt64kEntry s q.ctx wk.va wk.w e)) (execEntry (decodeEntry s.cfg .pt64k e) t) := by
  have hat : t.walkAt .pt64k = some wk := walkAt_eq.2 ⟨hwalk, hpos⟩
  unfold pt64kEntry at hpath ⊢
  cases he : e.getLsbD 0 with
  | false =>
    rw [if_neg (by decide), decodeEntry, he]
    exact notPresent_meets hr h hwalk (by rw [hpos]; rfl)
  | true =>
    simp only [he, if_true, ruleLeaf_eq, ← pageAddr_k64] at hpath ⊢
    simp only [decodeEntry, he, if_true, execEntry, execPte64kb, hat, h.agrees.looks.cfg]
    exact leaf_meets hfin h hpath

include hb

theorem pd_meets (h : Walking s q r st t wk) (hwalk : t.walk = some wk) (hpos : wk.pos = .pd)
    (hpath : ∀ g : Word64, g >>> 21 = wk.va >>> 21 → rulePpgtt s q.ctx g = pdEntry s q.ctx g wk.w e) :
    Meets s q (ruleAfter s q r st (pdEntry s q.ctx wk.va wk.w e)) (execEntry (decodeEntry s.cfg .pd e) t) := by
  have hat : t.walkAt .pd = some wk := walkAt_eq.2 ⟨hwalk, hpos⟩
  unfold pdEntry at hpath ⊢
  cases he : e.getLsbD 0 with
  | false =>
    rw [if_neg (by decide), decodeEntry, he]
    exact notPresent_meets hr h hwalk (by rw [hpos]; rfl)
  | true =>
    cases hleaf : isLeaf s.cfg .pd e with
    | true =>
      simp only [he, hleaf, if_true, ruleLeaf_eq, ← pageAddr_m2] at hpath ⊢
      simp only [decodeEntry, he, if_true, decodePde, hleaf, execEntry, execPde2mb, hat, h.agrees.looks.cfg]
      exact leaf_meets hfin h hpath
    | false =>
      simp only [he, hleaf, if_true, Bool.false_eq_true, if_false] at hpath ⊢
      simp only [decodeEntry, he, if_true, decodePde, hleaf, Bool.false_eq_true, if_false, execEntry, execPdePt, hat]
      cases hind : e.getLsbD 11 with
      | true =>
        simp only [rulePt_of_ind64 hind, if_true] at hpath ⊢
        refine descend_meets hb h (by decide) rfl fun t' wk' e' h' hwalk' hpos' hva hw hok => ?_
        rw [← hva, ← hw]
        refine pt64k_meets hfin hr h' hwalk' hpos' fun g hg => ?_
        rw [hva] at hg
        rw [hpath g (shiftRight_mono (n := 16) (m := 21) hg (by decide)), idx1k64, extractLsb'_congr hg (by decide), hw]
        exact congrArg (ruleThen · _) hok
      | false =>
        simp only [rulePt_of_not_ind64 hind, Bool.false_eq_true, if_false] at hpath ⊢
        refine descend_meets hb h (by decide) rfl fun t' wk' e' h' hwalk' hpos' hva hw hok => ?_
        rw [← hva, ← hw]
        refine pt4k_meets hfin hr h' hwalk' hpos' fun g hg => ?_
        rw [hva] at hg
        rw [hpath g (shiftRight_mono (n := 12) (m := 21) hg (by decide)), idx1, extractLsb'_congr hg (by decide), hw]
        exact congrArg (ruleThen · _) hok

theorem pdp_meets (h : Walking s q r st t wk) (hwalk : t.walk = some wk) (hpos : wk.pos = .pdp)
    (hpath : ∀ g : Word64, g >>> 30 = wk.va >>> 30 → rulePpgtt s q.ctx g = pdpEntry s q.ctx g wk.w e) :
    Meets s q (ruleAfter s q r st (pdpEntry s q.ctx wk.va wk.w e)) (execEntry (decodeEntry s.cfg .pdp e) t) := by
  have hat : t.walkAt .pdp = some wk := walkAt_eq.2 ⟨hwalk, hpos⟩
  unfold pdpEntry at hpath ⊢
  cases he : e.getLsbD 0 with
  | false =>
    rw [if_neg (by decide), decodeEntry, he]
    exact notPresent_meets hr h hwalk (by rw [hpos]; rfl)
  | true =>
    cases hleaf : isLeaf s.cfg .pdp e with
    | true =>
      simp only [he, hleaf, if_true, ruleLeaf_eq, ← pageAddr_g1] at hpath ⊢
      simp only [decodeEntry, he, if_true, decodePdpe, hleaf, execEntry, execPdpe1gb, hat, h.agrees.looks.cfg]
      exact leaf_meets hfin h hpath
    | false =>
      simp only [he, hleaf, if_true, Bool.false_eq_true, if_false, rulePd_eq] at hpath ⊢
      simp only [decodeEntry, he, if_true, decodePdpe, hleaf, Bool.false_eq_true, if_false, execEntry, execPdpePd, hat]
      refine descend_meets hb h (by decide) rfl fun t' wk' e' h' hwalk' hpos' hva hw hok => ?_
      rw [← hva, ← hw]
      refine pd_meets hfin hr hb h' hwalk' hpos' fun g hg => ?_
      rw [hva] at hg
      rw [hpath g (shiftRight_mono (n := 21) (m := 30) hg (by decide)), idx2, extractLsb'_congr hg (by decide), hw]
      exact congrArg (ruleThen · _) hok

theorem pml4_meets (h : Walking s q r st t wk) (hwalk : t.walk = some wk) (hpos : wk.pos = .pml4) (hw : wk.w = true)
    (hpath : ∀ g : Word64, g >>> 39 = wk.va >>> 39 → rulePpgtt s q.ctx g = pml4Entry s q.ctx g e) :
    Meets s q (ruleAfter s q r st (pml4Entry s q.ctx wk.va e)) (execEntry (decodeEntry s.cfg .pml4 e) t) := by
  have hat : t.walkAt .pml4 = some wk := walkAt_eq.2 ⟨hwalk, hpos⟩
  unfold pml4Entry at hpath ⊢
  cases he : e.getLsbD 0 with
  | false =>
    rw [if_neg (by decide), decodeEntry, he]
    exact notPresent_meets hr h hwalk (by rw [hpos]; rfl)
  | true =>
    simp only [he, if_true, rulePdp_eq] at hpath ⊢
    simp only [decodeEntry, he, if_true, execEntry, execPml4e, hat]
    refine descend_meets hb h (by decide) rfl fun t' wk' e' h' hwalk' hpos' hva hw' hok => ?_
    have hw'' : wk'.w = e.getLsbD 1 := by rw [hw', hw, Bool.true_and]
    rw [← hva, ← hw'']
    refine pdp_meets hfin hr hb h' hwalk' hpos' fun g hg => ?_
    rw [hva] at hg
    rw [hpath g (shiftRight_mono (n := 30) (m := 39) hg (by decide)), idx3, extractLsb'_congr hg (by decide), hw'']
    exact congrArg (ruleThen · _) hok

/-! ## The start of a walk -/

/-- With its PML4 cached the walk goes on at the cached entry (43_ppgtt R240). -/
theorem atPml4_meets (h : Walking s q r st t wk) (hwalkable : walkable s q.ctx) (page : Word64)
    (hcached : (t.ctx q.ctx).caches.pml4c.isSome = true) :
    Meets s q (ruleAfter s q r st (rulePpgtt s q.ctx wk.va)) (.next { t with walk := some (wk.atPml4 page) }) := by
  obtain ⟨x, hx⟩ := Option.isSome_iff_exists.1 hcached
  let t' : State := { t with walk := some (wk.atPml4 page) }
  have hx' : (t'.ctx (wk.atPml4 page).req.ctx).caches.pml4c = some x := by
    rw [show (wk.atPml4 page).req = q from h.req, show t'.ctx q.ctx = t.ctx q.ctx from ctx_congr rfl rfl _, hx]
  have hwalking : Walking s q r st t' (wk.atPml4 page) :=
    ⟨⟨h.req, h.regs, h.live, rfl⟩, h.agrees.setWalk _, h.stage, h.low⟩
  rw [rulePpgtt_of_walkable hwalkable]
  obtain hunsettled | hok := h.agrees.pml4 x hx (idx4 wk.va)
  · rw [hunsettled]
    exact (congrArg (fun tr => Meets s q tr _) ruleAfter_unsettled).mpr .unsettled
  · refine .step (wk := wk.atPml4 page) rfl ?_
    rw [walkStep, fetch_of_pml4_cached rfl rfl hx', hwalking.agrees.looks.cfg, hok]
    refine pml4_meets (wk := wk.atPml4 page) hfin hr hb hwalking rfl rfl rfl fun g hg => ?_
    rw [rulePpgtt_of_walkable hwalkable, idx4, extractLsb'_congr hg (by decide)]
    exact congrArg (ruleThen · _) hok

/-- A walk begins at an element of the TLB that agrees with the tables, or at the PML4 entry (43_ppgtt R218). -/
theorem begins_of_finishes (hmem : (s.ctx q.ctx).pml4.toNat + 4096 ≤ 2 ^ s.cfg.haw.bits) : Begins s q r st := by
  intro t wk h
  obtain rfl := h.req
  have hl : Agrees s wk.req.ctx (t.lookupTlb wk.req.ctx false wk.va).2 := h.agrees.choose _
  have hcfg : t.cfg = s.cfg := h.agrees.looks.cfg
  have hpml4 : (t.ctx wk.req.ctx).pml4 = (s.ctx wk.req.ctx).pml4 := by
    obtain ⟨_, hctx⟩ := h.agrees.looks.context
    rw [hctx]
  have hexists : inMemory s.cfg (s.ctx wk.req.ctx).pml4.toNat 4096 = true := decide_eq_true hmem
  simp only [beginPpgtt, hcfg, hpml4, h.agrees.sl, hexists]
  cases hhit : (t.lookupTlb wk.req.ctx false wk.va).1 with
  | some x =>
    obtain ⟨hx, hglobal, hvbase⟩ := lookupTlb_some hhit
    have hagree := h.agrees.tlb x hx wk.va hvbase.symm
    rw [hglobal, if_neg (by decide)] at hagree
    rw [hagree]
    exact hfin _ _ _ _ _ _ ⟨h.toServes, hl, h.stage, h.low⟩
  | none =>
    by_cases halign : (s.ctx wk.req.ctx).pml4.extractLsb' 0 12 = 0
    · have haligned : aligned4k (s.ctx wk.req.ctx).pml4 = true := by rw [aligned4k, halign]; rfl
      simp only [haligned, Bool.not_true, Bool.false_eq_true, if_false]
      cases hsl : s.sl wk.req.ctx (s.ctx wk.req.ctx).pml4 with
      | none =>
        rw [rulePpgtt_of_sl_none halign hsl, ruleAfter_refused]
        exact .refuseWalk h.live _
      | some page =>
        exact atPml4_meets hfin hr hb ⟨h.toServes, hl.fillPml4 hb halign hsl, h.stage, h.low⟩ ⟨halign, hmem, neste_of_sl_some hsl⟩ page
          (fillPml4_isSome ..)
    · have hmis : aligned4k (s.ctx wk.req.ctx).pml4 = false := by simpa [aligned4k] using halign
      simp only [hmis, Bool.not_false, if_true]
      rw [rulePpgtt, if_pos halign, ruleAfter_refused]
      exact .refuseWalk h.live _

end Ppgtt

end Sys2Proof.Machine

/-! # The TR-TT walk and the GGTT's against the rules'

An entry of a TR-TT table leads to a tile's outcome or to the table below, whose entry the PPGTT's walk finds; so the levels are settled from
the data address upwards. -/

namespace Sys2Proof.Machine

section Tables

variable {s t : State} {q : Request} {r : TrRegs} {wk : Walk} {l : TrLevel} {e : Nat} {x : Except Translation TileOut}

/-! ## What a finished translation leads to -/

theorem finishes_data (hr : ∀ x, recoverable s.cfg x = true) (hb : s.broken q.ctx = false) : Finishes s q r .data :=
  fun _ _ _ _ _ _ h => .of_served (ppgttDone_served h.req rfl h.live h.stage (fun _ => hb) (fun x _ => hr x) h.agrees.looks)

/-- In a table read the walker reads the table's entry next; a Null page is refused (41_trtt R176). -/
theorem finishes_table (hb : s.broken q.ctx = false)
    (hentry : ∀ (t : State) (wk : Walk) (e : Nat), Serves q r wk → Agrees s q.ctx t → t.walk = some wk → wk.pos = l.pos →
      Meets s q (trEntry s q.ctx r q.gva l e) (execEntry (decodeEntry s.cfg l.pos (BitVec.ofNat 64 e)) t)) :
    Finishes s q r (.table l) := by
  intro t wk z out nested deps h
  cases out with
  | null w =>
    simp only [ppgttDone, h.stage]
    exact .refuseWalk h.live _
  | page sp base mt w =>
    obtain rfl := h.req
    have hcfg := slAs_congr (s := s) h.agrees.looks.cfg nested wk.req.ctx (pageAddr z base wk.va)
    simp only [Mapping.at, Bool.false_eq_true, if_false]
    cases hsl : s.slAs nested wk.req.ctx (pageAddr z base wk.va) with
    | none =>
      simp only [ppgttDone, hcfg, hsl]
      exact .refuseWalk h.live _
    | some pa =>
      rw [ppgttDone_of_table h.stage (hcfg.trans hsl)]
      have hserves : Serves wk.req r { wk with pos := l.pos, space := sp, pa := pa, trDeps := deps ++ wk.trDeps } :=
        ⟨rfl, h.regs, h.live, h.unforced⟩
      have hagrees := h.agrees.setWalk (some { wk with pos := l.pos, space := sp, pa := pa, trDeps := deps ++ wk.trDeps })
      have hpos : l.pos ≠ .pml4 := by cases l <;> decide
      exact readWord_meets hb hagrees hserves rfl hpos (hentry _ _ _ hserves hagrees rfl rfl)

/-- What a TR-TT entry adds to what the translation rests on is not looked at. -/
theorem Serves.trNoted (h : Serves q r wk) : Serves q r wk.trNoted := ⟨h.req, h.regs, h.live, h.unforced⟩

/-! ## Tiles -/

/-- The outcome of a tile, with the data address's walk behind a mapped one. -/
theorem tileDone_meets (hdata : Begins s q r .data) (hserves : Serves q r wk) (h : Agrees s q.ctx t) (o : TileOut) :
    Meets s q (ruleTile s q.ctx q.gva (.ok o)) (tileDone wk o t) := by
  cases o with
  | mapped a =>
    have hva : va48 (trOutput a wk.req.gva) = (0 : BitVec 16) ++ a ++ q.gva.extractLsb' 0 16 := by rw [va48_trOutput, hserves.req]
    have hbegin := hdata t { wk with stage := .data, va := va48 (trOutput a wk.req.gva), forced := none }
      ⟨⟨hserves.req, hserves.regs, hserves.live, rfl⟩, h, rfl, va48_va48 _⟩
    dsimp only at hbegin
    rw [hva] at hbegin
    rw [tileDone, tileMapped, hva]
    exact hbegin
  | null =>
    rw [tileDone, nullTile_of_not_spurious hserves.live, hserves.req]
    have hframe := h.looks.toTouchesOnlyCaches.setProgress none (zeroCompletion q) (t.draws + 1) (Config.nullTileCount t.draws)
    exact .of_served ⟨_, rfl, rfl, rfl, hframe.sameMemory, hframe.sameRegisters, hframe.pending⟩
  | invalid =>
    rw [tileDone, invalidTile_of_not_spurious hserves.live, hserves.req]
    obtain ⟨hhalted, hreset, -⟩ := h.looks.pending
    exact .of_served ⟨_, rfl, rfl, rfl, h.looks.sameMemory,
      sameRegisters_trans h.looks.sameRegisters (sameRegisters_of_ctx rfl rfl rfl fun _ => ctx_congr rfl rfl _), h.looks.nullcnt, rfl,
      hhalted, hreset⟩

theorem tileFound_meets (hdata : Begins s q r .data) (hserves : Serves q r wk) (h : Agrees s q.ctx t) (o : TileOut) :
    Meets s q (ruleTile s q.ctx q.gva (.ok o)) (tileFound wk o t) := by
  obtain ⟨y, hfound⟩ := tileFound_eq_tileDone wk o t
  rw [hfound, hserves.req]
  exact tileDone_meets hdata hserves.trNoted (h.fillTrTlb y) o

/-! ## Table reads -/

theorem tableRead_meets (hbegins : Begins s q r (.table l)) (hserves : Serves q r wk) (h : Agrees s q.ctx t) (a : Word64) :
    Meets s q (ruleTable s q.ctx r a (entryBytes l.pos) (trEntry s q.ctx r q.gva l)) (tableRead wk l a t) := by
  obtain rfl := hserves.regs
  simp only [tableRead, ruleTable]
  cases trDetect wk.regs a with
  | none => exact .refuseWalk hserves.live _
  | some b =>
    cases b with
    | true => exact .refuseWalk hserves.live _
    | false =>
      have hbegin := hbegins t { wk with stage := .table l, va := va48 a, forced := none }
        ⟨⟨hserves.req, rfl, hserves.live, rfl⟩, h, rfl, va48_va48 _⟩
      dsimp only at hbegin
      rw [rulePpgtt_va48] at hbegin
      exact hbegin

/-- A pointer is refused with bit 47 under Dual Context, and else leads to a table read (41_trtt R175, R189). -/
theorem trDescend_meets (hbegins : Begins s q r (.table l)) (hserves : Serves q r wk) (h : Agrees s q.ctx t) {a : Word64} {bit47 : Bool}
    (hrule : ruleTile s q.ctx q.gva x = ruleTable s q.ctx r a (entryBytes l.pos) (trEntry s q.ctx r q.gva l)) :
    Meets s q
      (ruleTile s q.ctx q.gva (if s.cfg.dualContext && bit47 then .error (.refused .trttDualContextBit47) else x))
      (trDescend wk bit47 l a t) := by
  rw [trDescend, h.looks.cfg]
  split
  · exact .refuseWalk hserves.live _
  · rw [hrule]
    exact tableRead_meets hbegins hserves.trNoted h a

/-! ## Entries -/

theorem ruleFlagged_pointer {p : Params} (hnull : e.testBit 1 = false) (hinvalid : e.testBit 0 = false) :
    ruleFlagged p e x = if p.dualContext && e.testBit 47 then .error (.refused .trttDualContextBit47) else x := by
  simp only [ruleFlagged, ruleFlags, hnull, hinvalid]
  cases p.dualContext && e.testBit 47 <;> rfl

theorem ruleFlagged_null {p : Params} (hnull : e.testBit 1 = true) (hinvalid : e.testBit 0 = false) :
    ruleFlagged p e x = .ok .null := by
  simp only [ruleFlagged, ruleFlags, hnull, hinvalid]

theorem ruleFlagged_invalid {p : Params} (hnull : e.testBit 1 = false) (hinvalid : e.testBit 0 = true) :
    ruleFlagged p e x = .ok .invalid := by
  simp only [ruleFlagged, ruleFlags, hnull, hinvalid]

theorem ruleFlagged_both {p : Params} (hnull : e.testBit 1 = true) (hinvalid : e.testBit 0 = true) :
    ruleFlagged p e x = .error (.refused .trttNullAndInvalid) := by
  simp only [ruleFlagged, ruleFlags, hnull, hinvalid]

theorem getLsbD_ofNat64 {i : Nat} (hi : i < 64) (e : Nat) : (BitVec.ofNat 64 e).getLsbD i = e.testBit i := by
  rw [BitVec.getLsbD_ofNat, decide_eq_true hi, Bool.true_and]

/-- Bit 47 of an entry is the top bit of its ADDR field [47:12]. -/
theorem getLsbD_trAddr (e : Nat) : ((BitVec.ofNat 64 e).extractLsb' 12 36).getLsbD 35 = e.testBit 47 := by
  rw [BitVec.getLsbD_extractLsb', getLsbD_ofNat64 (by decide)]
  rfl

theorem entry8_trTableBase (a : BitVec 36) (k : BitVec 9) :
    entry8 (trTableBase a) k = (0 : BitVec 16) ++ a ++ k ++ (0 : BitVec 3) := by
  have h := entry8_append a k (by decide)
  apply BitVec.eq_of_toNat_eq
  rw [trTableBase, h]
  have ha := a.isLt
  have hk := k.isLt
  simp only [BitVec.toNat_setWidth, toNat_append_eq, BitVec.ofNat_eq_ofNat, BitVec.toNat_ofNat]
  omega

theorem entry4_trTableBase (a : BitVec 36) (k : BitVec 10) :
    entry4 (trTableBase a) k = (0 : BitVec 16) ++ a ++ k ++ (0 : BitVec 2) := by
  have h := entry4_append a k (by decide)
  apply BitVec.eq_of_toNat_eq
  rw [trTableBase, h]
  have ha := a.isLt
  have hk := k.isLt
  simp only [BitVec.toNat_setWidth, toNat_append_eq, BitVec.ofNat_eq_ofNat, BitVec.toNat_ofNat]
  omega

theorem l3Entry_meets (hdata : Begins s q r .data) (hl2 : Begins s q r (.table .l2)) (hserves : Serves q r wk) (h : Agrees s q.ctx t)
    (hwalk : t.walk = some wk) (hpos : wk.pos = .trL3) :
    Meets s q (trEntry s q.ctx r q.gva .l3 e) (execEntry (decodeEntry s.cfg .trL3 (BitVec.ofNat 64 e)) t) := by
  have hat : t.walkAt .trL3 = some wk := walkAt_eq.2 ⟨hwalk, hpos⟩
  simp only [trEntry, decodeEntry, decodeTrL3, getLsbD_ofNat64 (i := 1) (by decide), getLsbD_ofNat64 (i := 0) (by decide)]
  cases hnull : e.testBit 1 <;> cases hinvalid : e.testBit 0 <;> simp only [execEntry]
  · rw [ruleFlagged_pointer hnull hinvalid]
    simp only [execTrttL3Pointer, hat, getLsbD_trAddr, entry8_trTableBase, hserves.req]
    exact trDescend_meets hl2 hserves h (ruleTile_ruleL2 e)
  · rw [ruleFlagged_invalid hnull hinvalid]
    simp only [execTrttL3Invalid, hat]
    exact tileFound_meets hdata hserves h _
  · rw [ruleFlagged_null hnull hinvalid]
    simp only [execTrttL3Null, hat]
    exact tileFound_meets hdata hserves h _
  · rw [ruleFlagged_both hnull hinvalid]
    simp only [execTrttL3NullAndInvalid, hat]
    exact .refuseWalk hserves.live _

theorem l2Entry_meets (hdata : Begins s q r .data) (hl1 : Begins s q r (.table .l1)) (hserves : Serves q r wk) (h : Agrees s q.ctx t)
    (hwalk : t.walk = some wk) (hpos : wk.pos = .trL2) :
    Meets s q (trEntry s q.ctx r q.gva .l2 e) (execEntry (decodeEntry s.cfg .trL2 (BitVec.ofNat 64 e)) t) := by
  have hat : t.walkAt .trL2 = some wk := walkAt_eq.2 ⟨hwalk, hpos⟩
  simp only [trEntry, decodeEntry, decodeTrL2, getLsbD_ofNat64 (i := 1) (by decide), getLsbD_ofNat64 (i := 0) (by decide)]
  cases hnull : e.testBit 1 <;> cases hinvalid : e.testBit 0 <;> simp only [execEntry]
  · rw [ruleFlagged_pointer hnull hinvalid]
    simp only [execTrttL2Pointer, hat, getLsbD_trAddr, entry4_trTableBase, hserves.req]
    exact trDescend_meets hl1 hserves h (ruleTile_ruleL1 e)
  · rw [ruleFlagged_invalid hnull hinvalid]
    simp only [execTrttL2Invalid, hat]
    exact tileFound_meets hdata hserves h _
  · rw [ruleFlagged_null hnull hinvalid]
    simp only [execTrttL2Null, hat]
    exact tileFound_meets hdata hserves h _
  · rw [ruleFlagged_both hnull hinvalid]
    simp only [execTrttL2NullAndInvalid, hat]
    exact .refuseWalk hserves.live _

theorem l1Entry_meets (hdata : Begins s q r .data) (hserves : Serves q r wk) (h : Agrees s q.ctx t) (hwalk : t.walk = some wk)
    (hpos : wk.pos = .trL1) :
    Meets s q (trEntry s q.ctx r q.gva .l1 e) (execEntry (decodeEntry s.cfg .trL1 (BitVec.ofNat 64 e)) t) := by
  have hat : t.walkAt .trL1 = some wk := walkAt_eq.2 ⟨hwalk, hpos⟩
  have hword : (BitVec.ofNat 64 e).setWidth 32 = BitVec.ofNat 32 e := BitVec.setWidth_ofNat_of_le (by decide) e
  have hbit : (BitVec.ofNat 32 e).getLsbD 31 = e.testBit 31 := by
    rw [BitVec.getLsbD_ofNat, decide_eq_true (by decide), Bool.true_and]
  simp only [trEntry, ruleL1Value, decodeEntry, hword, execEntry, execTrttL1, hat, hserves.regs, l1Outcome]
  split
  · exact tileFound_meets hdata hserves h _
  · split
    · exact tileFound_meets hdata hserves h _
    · simp only [h.looks.cfg, hbit]
      split
      · exact .refuseWalk hserves.live _
      · exact tileFound_meets hdata hserves h _

/-- What the TR TLB gives matches the address's tile. -/
theorem lookupTrTlb_some {c : CtxId} {gva : Word64} {y : TrTlbEntry} (h : (s.lookupTrTlb c gva).1 = some y) :
    y ∈ (s.ctx c).caches.trTlb ∧ y.tile = tileOf gva := by
  have hmem : y ∈ (s.ctx c).caches.trTlb.filter fun y => y.tile == tileOf gva := by
    unfold State.lookupTrTlb State.choose at h
    split at h
    · cases h
    · exact List.mem_of_getElem? h
  simpa using hmem

/-! ## The levels, from the data address upwards -/

variable (hr : ∀ x, recoverable s.cfg x = true) (hb : s.broken q.ctx = false)
  (hmem : (s.ctx q.ctx).pml4.toNat + 4096 ≤ 2 ^ s.cfg.haw.bits)
include hr hb hmem

theorem begins_data : Begins s q r .data := begins_of_finishes (finishes_data hr hb) hr hb hmem

theorem begins_l1 : Begins s q r (.table .l1) :=
  begins_of_finishes (finishes_table hb fun _ _ _ => l1Entry_meets (begins_data hr hb hmem)) hr hb hmem

theorem begins_l2 : Begins s q r (.table .l2) :=
  begins_of_finishes (finishes_table hb fun _ _ _ => l2Entry_meets (begins_data hr hb hmem) (begins_l1 hr hb hmem)) hr hb hmem

theorem begins_l3 : Begins s q r (.table .l3) :=
  begins_of_finishes (finishes_table hb fun _ _ _ => l3Entry_meets (begins_data hr hb hmem) (begins_l2 hr hb hmem)) hr hb hmem

/-- TRTT_Walk begins at an element of the TR TLB that agrees with the tables, or with the checks of the registers (41_trtt R175). -/
theorem beginTrtt_meets (hserves : Serves q r wk) (h : Agrees s q.ctx t) (htr : (t.ctx q.ctx).caches.trTlb = (s.ctx q.ctx).caches.trTlb)
    (hregs : (s.ctx q.ctx).tr = r) (hagree : trTlbAgrees s q.ctx) :
    Meets s q (ruleTile s q.ctx q.gva (ruleTrtt s q.ctx r q.gva)) (beginTrtt wk t) := by
  have hl : Agrees s q.ctx (t.lookupTrTlb q.ctx q.gva).2 := h.choose _
  simp only [beginTrtt, hserves.req, hserves.regs]
  cases hhit : (t.lookupTrTlb q.ctx q.gva).1 with
  | some x =>
    obtain ⟨hx, htile⟩ := lookupTrTlb_some hhit
    rw [htr] at hx
    have hrule := hagree x hx q.gva htile.symm
    rw [hregs] at hrule
    rw [hrule]
    exact tileDone_meets (begins_data hr hb hmem) hserves hl _
  | none =>
    cases hgpa : trVirtual r with
    | false =>
      have hbit : r.trtte.getLsbD 1 = false := hgpa
      have hrule : ruleTrtt s q.ctx r q.gva = .error (.refused .trttGpaMode) := by rw [ruleTrtt, if_pos (by rw [hbit]; decide)]
      rw [hrule]
      exact .refuseWalk hserves.live _
    | true =>
      simp only [Bool.not_true, Bool.false_eq_true, if_false]
      by_cases heq : r.nulldet = r.invdet
      · have hbit : r.trtte.getLsbD 1 = true := hgpa
        have hrule : ruleTrtt s q.ctx r q.gva = .error (.refused .trttNullEqInvalid) := by
          rw [ruleTrtt, if_neg (not_not.2 hbit), if_pos heq]
        rw [hrule, if_pos heq]
        exact .refuseWalk hserves.live _
      · rw [if_neg heq, ruleTile_ruleTrtt hgpa heq, entry8_l3Base]
        exact tableRead_meets (begins_l3 hr hb hmem) hserves hl _

end Tables

end Sys2Proof.Machine

/-! # Requests by the rules

The GGTT's walk, the choice of the translator, and with them every request of a coherent context (40_request_pipeline R151 to R153). -/

namespace Sys2Proof.Machine

section Requests

variable {s t : State} {q : Request} {wk : Walk} {c : CtxId}

/-! ## The GGTT -/

theorem ruleGgtt_of_admitted (halign : s.cfg.ggttBase.extractLsb' 0 12 = 0)
    (hfits : s.cfg.ggttBase.toNat + 2 ^ 23 ≤ 2 ^ s.cfg.haw.bits) (g : Word64) {e : Word64}
    (he : e = BitVec.ofNat 64 (s.physRead .system (s.cfg.ggttBase + (g.extractLsb' 12 20).setWidth 64 <<< 3) 8)) :
    ruleGgtt s g =
      if e.getLsbD 0 then .phys .system (frameOf s.cfg e ++ g.extractLsb' 0 12) true else .notPresent .ggtt (va32 g) := by
  rw [ruleGgtt, if_neg (not_not.2 halign), if_neg (not_not.2 hfits), he]

theorem ruleGgtt_of_misaligned (halign : s.cfg.ggttBase.extractLsb' 0 12 ≠ 0) (g : Word64) :
    ruleGgtt s g = .refused .misalignedTableBase := by
  rw [ruleGgtt, if_pos halign]

theorem ruleGgtt_of_beyond (halign : s.cfg.ggttBase.extractLsb' 0 12 = 0)
    (hfits : ¬ s.cfg.ggttBase.toNat + 2 ^ 23 ≤ 2 ^ s.cfg.haw.bits) (g : Word64) : ruleGgtt s g = .refused .ggttBeyondMemory := by
  rw [ruleGgtt, if_neg (not_not.2 halign), if_pos hfits]

/-- The entry of the GGTT is read as memory holds it, and serves the request or faults (42_ggtt R201, R206). -/
theorem ggttEntry_meets (hb : s.broken q.ctx = false) (h : Agrees s q.ctx t) (hq : wk.req = q) (hlive : wk.spurious = false)
    (hforced : wk.forced = none) (hwalk : t.walk = some wk) (hpos : wk.pos = .ggtt) (hva : va32 wk.va = wk.va) {e : Word64}
    (he : e = BitVec.ofNat 64 (s.physRead wk.space wk.pa 8))
    (hr : Repairable s q
      (if e.getLsbD 0 then .phys .system (frameOf s.cfg e ++ wk.va.extractLsb' 0 12) true else .notPresent .ggtt (va32 wk.va))) :
    Meets s q
      (if e.getLsbD 0 then .phys .system (frameOf s.cfg e ++ wk.va.extractLsb' 0 12) true else .notPresent .ggtt (va32 wk.va))
      (.next t) := by
  subst hq
  have hat : t.walkAt .ggtt = some wk := walkAt_eq.2 ⟨hwalk, hpos⟩
  have hfetch : fetch wk t = (decodeEntry s.cfg .ggtt e, t) := by
    simp only [fetch, fetchWord, hforced, hpos, h.physRead, h.looks.cfg, he]
  refine .step hwalk ?_
  rw [walkStep, hfetch]
  cases hpresent : e.getLsbD 0 with
  | false =>
    simp only [hpresent, Bool.false_eq_true, if_false, hva] at hr ⊢
    simp only [decodeEntry, hpresent, Bool.false_eq_true, if_false, execEntry, execNotPresent, hwalk, hpos, levelOf]
    exact .of_served (raiseFault_halts hlive (hr _ rfl) h.looks)
  | true =>
    simp only [hpresent, if_true, ← pageAddr_k4] at hr ⊢
    simp only [decodeEntry, hpresent, if_true, execEntry, execGgttPte, hat]
    exact .of_served (ggttDone_served (out := .page .system (frameBase (frameField s.cfg e)) 0 true) (nested := false) (z := .k4)
      (noted_req wk) (noted_va wk) ((noted_spurious wk).trans hlive) (fun _ => hb) hr (h.looks.trans (.fillTlb ..)))

/-- GGTT_Translate begins at an element of the TLB that agrees with the tables, or at the entry (42_ggtt R201). -/
theorem beginGgtt_meets (hb : s.broken q.ctx = false) (h : Agrees s q.ctx t) (hq : wk.req = q) (hlive : wk.spurious = false)
    (hva : va32 wk.va = wk.va) (hr : Repairable s q (ruleGgtt s wk.va)) : Meets s q (ruleGgtt s wk.va) (beginGgtt wk t) := by
  subst hq
  have hl : Agrees s wk.req.ctx (t.lookupTlb wk.req.ctx true wk.va).2 := h.choose _
  simp only [beginGgtt, h.looks.cfg]
  cases hhit : (t.lookupTlb wk.req.ctx true wk.va).1 with
  | some x =>
    obtain ⟨hx, hglobal, hvbase⟩ := lookupTlb_some hhit
    have hagree := h.tlb x hx wk.va hvbase.symm
    rw [hglobal, if_pos rfl] at hagree
    rw [hagree] at hr ⊢
    exact .of_served (ggttDone_served rfl rfl hlive (fun _ => hb) hr hl.looks)
  | none =>
    by_cases halign : s.cfg.ggttBase.extractLsb' 0 12 = 0
    · have haligned : aligned4k s.cfg.ggttBase = true := by rw [aligned4k, halign]; rfl
      simp only [haligned, Bool.not_true, Bool.false_eq_true, if_false]
      by_cases hfits : s.cfg.ggttBase.toNat + 2 ^ 23 ≤ 2 ^ s.cfg.haw.bits
      · have hfit : ggttFits s.cfg = true := decide_eq_true hfits
        simp only [hfit, Bool.not_true, Bool.false_eq_true, if_false]
        rw [ruleGgtt_of_admitted halign hfits wk.va rfl] at hr ⊢
        exact ggttEntry_meets (wk := { wk with pos := .ggtt, space := .system, pa := ggttEntry s.cfg.ggttBase (idxGgtt wk.va), w := true,
                                               deps := [], forced := none })
          hb (hl.setWalk _) rfl hlive rfl rfl rfl hva (by rw [ggttEntry_eq_shiftLeft]; rfl) hr
      · have hfit : ggttFits s.cfg = false := decide_eq_false hfits
        simp only [hfit, Bool.not_false, if_true]
        rw [ruleGgtt_of_beyond halign hfits]
        exact .refuseWalk hlive _
    · have hmis : aligned4k s.cfg.ggttBase = false := by simpa [aligned4k] using halign
      simp only [hmis, Bool.not_false, if_true]
      rw [ruleGgtt_of_misaligned halign]
      exact .refuseWalk hlive _

/-! ## The choice of the translator -/

/-- A coherent context's caches agree with the tables as a request begins. -/
theorem Agrees.start (hco : coherent s c) (hl : Looks c s t) (hctx : t.ctx c = s.ctx c) : Agrees s c t := by
  obtain ⟨-, htlb, -⟩ := hco
  refine ⟨hl, by rw [hctx]; exact htlb, .of_ctx hctx, fun x hx k => .inr ?_⟩
  rw [hctx] at hx
  rw [rulePml4, hx]

theorem ruleAfter_data (r : TrRegs) (tr : Translation) : ruleAfter s q r .data tr = tr := rfl

theorem serves_start (q : Request) (r : TrRegs) : Serves q r (Walk.start q r) := ⟨rfl, rfl, rfl, rfl⟩

/-- A request of a context of kind GGTT goes to the GGTT, but for a process context with TR-TT active (41_trtt R187). -/
theorem beginTranslate_ggtt_meets (hco : coherent s q.ctx) (hl : Looks q.ctx s t) (hctx : t.ctx q.ctx = s.ctx q.ctx)
    (hkind : (s.ctx q.ctx).kind = .ggtt) (hr : Repairable s q (ruleGgtt s q.gva)) :
    Meets s q (ruleTranslate s q.agent q.ctx q.gva) (beginTranslate q t) := by
  obtain ⟨⟨hb, hold⟩, -, -⟩ := id hco
  have hpick : t.pickRegs q.ctx = ((s.ctx q.ctx).tr, t) := by rw [pickRegs_present t q.ctx (by rw [hctx]; exact hold), hctx]
  simp only [beginTranslate, ruleTranslate, hctx, hkind, hpick, hl.cfg, hl.trbypass]
  by_cases hactive : q.ctx ≠ .global ∧ trActive s.cfg s.trbypass (s.ctx q.ctx).tr = true
  · rw [if_pos hactive, if_pos (by simpa using hactive)]
    exact .of_served rfl
  · rw [if_neg hactive, if_neg (by simpa using hactive), ← ruleGgtt_va32]
    rw [← ruleGgtt_va32] at hr
    exact beginGgtt_meets (wk := { Walk.start q (s.ctx q.ctx).tr with va := va32 q.gva }) hb (.start hco hl hctx) rfl rfl (va32_va32 _) hr

/-- A request of a context of kind PPGTT goes to the PPGTT, through TR-TT where its address is detected (40_request_pipeline R151). -/
theorem beginTranslate_ppgtt_meets (hco : coherent s q.ctx) (hr : ∀ x, recoverable s.cfg x = true)
    (hmem : (s.ctx q.ctx).pml4.toNat + 4096 ≤ 2 ^ s.cfg.haw.bits) (hl : Looks q.ctx s t) (hctx : t.ctx q.ctx = s.ctx q.ctx)
    (hkind : (s.ctx q.ctx).kind = .ppgtt48) : Meets s q (ruleTranslate s q.agent q.ctx q.gva) (beginTranslate q t) := by
  obtain ⟨⟨hb, hold⟩, -, htr⟩ := id hco
  have hagrees : Agrees s q.ctx t := .start hco hl hctx
  have hpick : t.pickRegs q.ctx = ((s.ctx q.ctx).tr, t) := by rw [pickRegs_present t q.ctx (by rw [hctx]; exact hold), hctx]
  have hppgtt : Meets s q (rulePpgtt s q.ctx q.gva) (beginPpgtt (Walk.start q (s.ctx q.ctx).tr) t) := by
    have hbegin := begins_data hr hb hmem t (Walk.start q (s.ctx q.ctx).tr) ⟨serves_start q _, hagrees, rfl, va48_va48 _⟩
    rwa [ruleAfter_data, show (Walk.start q (s.ctx q.ctx).tr).va = va48 q.gva from rfl, rulePpgtt_va48] at hbegin
  simp only [beginTranslate, hctx, hkind, hpick, hl.cfg, hl.trbypass]
  cases hactive : trActive s.cfg s.trbypass (s.ctx q.ctx).tr with
  | false =>
    rw [ruleTranslate_ppgtt hkind (.inl hactive)]
    exact hppgtt
  | true =>
    cases hdetect : trDetect (s.ctx q.ctx).tr q.gva with
    | none =>
      have hrule : ruleTranslate s q.agent q.ctx q.gva = .refused .trvamvUnsupported := by
        simp only [ruleTranslate, hkind, hactive, hdetect, if_true]
      rw [hrule]
      exact .of_served rfl
    | some b =>
      cases b with
      | false =>
        rw [ruleTranslate_ppgtt hkind (.inr hdetect)]
        exact hppgtt
      | true =>
        cases hengine : trEngine q.agent with
        | true =>
          rw [ruleTranslate_tile hkind hactive hdetect hengine]
          exact beginTrtt_meets hr hb hmem (serves_start q _) hagrees (by rw [hctx]) rfl htr
        | false =>
          have hother : q.agent ≠ .render ∧ q.agent ≠ .posh := by
            cases hagent : q.agent <;> simp [hagent, trEngine] at hengine ⊢
          have hrule : ruleTranslate s q.agent q.ctx q.gva = .refused .trttEngine := by
            simp only [ruleTranslate, hkind, hactive, hdetect, if_true, if_pos hother]
          rw [hrule]
          exact .of_served rfl

/-! ## Requests -/

theorem admitted_of_looks (hadm : admitted s q.ctx q.gva q.n) (hl : Looks q.ctx s t) (hctx : t.ctx q.ctx = s.ctx q.ctx) :
    admitted t q.ctx q.gva q.n := by
  obtain ⟨-, hreset, -⟩ := hl.pending
  rw [admitted, hctx, hl.cfg, hreset]
  exact hadm

/-- A request in a coherent context does what the rules say (40_request_pipeline R151 to R153), from any state that has only looked
things up. -/
theorem runRequest_follows (hadm : admitted s q.ctx q.gva q.n) (hco : coherent s q.ctx) (hr : ∀ x, recoverable s.cfg x = true)
    (hmem : (s.ctx q.ctx).pml4.toNat + 4096 ≤ 2 ^ s.cfg.haw.bits) (hl : Looks q.ctx s t) (hctx : t.ctx q.ctx = s.ctx q.ctx) :
    served s q (runRequest q t) (ruleTranslate s q.agent q.ctx q.gva) := by
  refine runRequest_served (admitted_of_looks hadm hl hctx) ?_
  cases hkind : (s.ctx q.ctx).kind with
  | ggtt => exact beginTranslate_ggtt_meets hco hl hctx hkind fun x _ => hr x
  | ppgtt48 => exact beginTranslate_ppgtt_meets hco hr hmem hl hctx hkind
  | advPpgtt64 | ppgtt32 =>
    simp only [beginTranslate, ruleTranslate, hctx, hkind]
    exact .of_served rfl

theorem looks_forRequest (s : State) (c : CtxId) : Looks c s s.forRequest := .setWalk ..

/-- A request that the rules serve leaves the interrupt as it is, but at an Invalid tile (60_exceptions R271). -/
theorem served_irqInvalidTile {tr : Translation} (h : served s q (.next t) tr) (hinvalid : tr ≠ .invalidTile)
    (hunsettled : tr ≠ .unsettled) : t.irqInvalidTile = s.irqInvalidTile := by
  have hhalts {x : Cause} (h : halts s q x (.next t)) : t.irqInvalidTile = s.irqInvalidTile := by
    obtain ⟨_, ⟨⟩, -, -, -, -, -, -, -, hirq, -⟩ := h
    exact hirq
  have hunchanged (h : unchanged s t) : t.irqInvalidTile = s.irqInvalidTile := by
    obtain ⟨-, -, ⟨-, -, hirq⟩, -⟩ := h
    exact hirq
  unfold served at h
  split at h
  · split at h
    · obtain ⟨_, ⟨⟩, -, -, h⟩ := h
      exact hunchanged h
    · split at h
      · exact hhalts h
      · split at h
        · cases h
        · obtain ⟨_, ⟨⟩, -, -, -, -, -, ⟨-, -, hirq⟩, -⟩ := h
          exact hirq
  · split at h
    · exact hhalts h
    · obtain ⟨_, ⟨⟩, -, -, h⟩ := h
      exact hunchanged h
  · obtain ⟨_, ⟨⟩, -, -, -, -, ⟨-, -, hirq⟩⟩ := h
    exact hirq
  · exact absurd rfl hinvalid
  · exact hhalts h
  · cases h
  · exact absurd rfl hunsettled

theorem endSpurious_irqInvalidTile (wk : Walk) (s : State) : (endSpurious wk s).irqInvalidTile = s.irqInvalidTile := by
  unfold endSpurious
  split <;> rfl

theorem nonRecoverable_irqInvalidTile (wk : Walk) (s : State) : (nonRecoverable wk s).irqInvalidTile = s.irqInvalidTile := by
  unfold Machine.nonRecoverable
  split <;> rfl

/-- Where a request of the walker makes the interrupt pending, it may (60_exceptions R271). -/
theorem Moves.may_of_irqInvalidTile {b : Bool} {st : Stage} {may : Prop} (h : Moves q b st may s t) (hs : s.irqInvalidTile = false)
    (ht : t.irqInvalidTile = true) : may := by
  have hlooks {s' : State} (hl : Looks q.ctx s s') : s'.irqInvalidTile = false := by
    obtain ⟨-, -, hirq⟩ := hl.pending
    exact hirq.trans hs
  cases h with
  | goOn wk' h => exact absurd ((hlooks h).symm.trans ht) (by decide)
  | spuriousEnd wk' v irq h hq hb hirq =>
    rw [endSpurious_irqInvalidTile] at ht
    rw [hlooks h, Bool.or_false] at ht
    exact hirq ht
  | spuriousStore wk' sp pa v h hq hb hv =>
    rw [endSpurious_irqInvalidTile] at ht
    exact absurd ((hlooks h).symm.trans ht) (by decide)
  | completed r v irq h hb hr hirq =>
    rw [hlooks h, Bool.or_false] at ht
    exact hirq ht
  | stored sp pa v h hb hv => exact absurd ((hlooks h).symm.trans ht) (by decide)
  | halted x h hb hq => exact absurd ((hlooks h).symm.trans ht) (by decide)
  | nonRecoverable wk' h hq hv =>
    rw [nonRecoverable_irqInvalidTile] at ht
    exact absurd ((hlooks h).symm.trans ht) (by decide)

end Requests

/-- Settles O20: a READ is a request that begins by taking its number. -/
theorem readFollowsTheRules : Obligations.ReadFollowsTheRules := by
  intro s e c gva n hadm hco hr hmem
  exact runRequest_follows (q := { id := s.nextReq, agent := e, ctx := c, gva := gva, n := n, value := none }) hadm hco hr hmem
    (looks_forRequest s c) (forRequest_ctx s c)

/-- Settles O21: a WRITE is a request that begins by taking its number. -/
theorem writeFollowsTheRules : Obligations.WriteFollowsTheRules := by
  intro s e c gva n v hadm hco hr hmem
  exact runRequest_follows (q := { id := s.nextReq, agent := e, ctx := c, gva := gva, n := n, value := some v }) hadm hco hr hmem
    (looks_forRequest s c) (forRequest_ctx s c)

/-- Settles O22: the response runs the request from the state without its record. -/
theorem faultResponseReexecutesTheRequest : Obligations.FaultResponseReexecutesTheRequest := by
  intro s k h hk s1 hadm hco hr hmem
  have hexec : exec (.faultResponse k true) s = runRequest h.req { s1 with walk := none } := execFaultResponse_ok hk
  rw [hexec]
  exact runRequest_follows hadm hco hr hmem (.setWalk ..) (ctx_congr rfl rfl _)

/-- Settles O27: with the bypass enabled TR-TT is inactive, whatever the registers hold. -/
theorem bypassedTileAddressesGoToThePpgtt : Obligations.BypassedTileAddressesGoToThePpgtt := by
  intro s e c gva n v hadm hco hr hmem hkind hbypass
  have hinactive : trActive s.cfg s.trbypass (s.ctx c).tr = false := by rw [trActive, hbypass, Bool.and_false, Bool.false_and]
  rw [← ruleTranslate_ppgtt (e := e) hkind (.inl hinactive)]
  exact ⟨readFollowsTheRules s e c gva n hadm hco hr hmem, writeFollowsTheRules s e c gva n v hadm hco hr hmem⟩

/-- Settles O29: the host's store is looked at before it is made, and a WRITE's translation says where it goes. -/
theorem storesIntoTheGgttAreRefused : Obligations.StoresIntoTheGgttAreRefused := by
  refine ⟨fun s pa n v hmem hggtt => (tableWriteStoresItsBytes s .system pa n v).2.1 (.inl rfl) hmem hggtt,
    fun s e c gva pa n v hadm hco hr hmem hrule hggtt => ?_⟩
  have hserved := writeFollowsTheRules s e c gva n v hadm hco hr hmem
  rw [hrule] at hserved
  simpa [served, hggtt] using hserved

end Sys2Proof.Machine

/-! # Global pages, and what makes the interrupt pending -/

namespace Sys2Proof.Machine

section Global

variable {s t : State} {q : Request} {pa : Word64}

/-! ## Global pages -/

/-- A request of GLOBAL to a present page does what the rules say of it, whatever the platform can repair: there is no fault. -/
theorem runRequest_presentGlobalPage (hc : q.ctx = .global) (hadm : admitted s .global q.gva q.n) (hco : coherent s .global)
    (hrule : ruleGgtt s q.gva = .phys .system pa true) (hl : Looks .global s t) (hctx : t.ctx .global = s.ctx .global) :
    served s q (runRequest q t) (.phys .system pa true) := by
  obtain ⟨id, agent, ctx, gva, n, value⟩ := q
  subst hc
  have htranslate : ruleTranslate s agent .global gva = .phys .system pa true := by
    unfold ruleTranslate
    exact (if_neg fun h => h.1 rfl).trans hrule
  rw [← htranslate]
  refine runRequest_served (admitted_of_looks hadm hl hctx) (beginTranslate_ggtt_meets hco hl hctx rfl ?_)
  rw [hrule]
  intro x hx
  simp [Translation.fault] at hx

theorem served_read {sp : Space} {w : Bool} {o : Out} (hq : q.value = none) (h : served s q o (.phys sp pa w)) :
    ∃ t, o = .next t ∧ t.walk = none ∧ t.result = .read q.id (s.physRead sp pa q.n) false ∧ unchanged s t := by
  simpa only [served, hq] using h

theorem served_write {sp : Space} {v : Nat} {o : Out} (hq : q.value = some v) (hout : inGgtt s.cfg sp pa.toNat q.n = false)
    (h : served s q o (.phys sp pa true)) :
    ∃ t, o = .next t ∧ t.walk = none ∧ t.result = .write q.id ∧ holds t sp pa.toNat q.n v ∧
      sameMemoryOutside s t sp pa.toNat q.n ∧ sameRegisters s t ∧ samePending s t ∧ sameCounter s t := by
  simpa [served, hq, hout] using h

/-! ## The interrupt -/

/-- Only an entry that says Invalid, or something inside a request, makes the interrupt pending (60_exceptions R271). -/
theorem exec_raises_irqInvalidTile {i : Instr} (h : exec i s = .next t) (hs : s.irqInvalidTile = false) (ht : t.irqInvalidTile = true) :
    (∃ e c g n, i = .read e c g n) ∨ (∃ e c g n v, i = .write e c g n v) ∨ (∃ k ok, i = .faultResponse k ok) ∨
      ∃ wk pos, s.walk = some wk ∧ tileView wk.regs i = some (pos, .invalid) := by
  have hquiet {u : State} (hu : u.irqInvalidTile = s.irqInvalidTile) (h : u.irqInvalidTile = true) {p : Prop} : p :=
    absurd ((hu.trans hs).symm.trans h) (by decide)
  cases exec_answers h with
  | entry wk hi hwalk =>
    rw [exec_eq_execEntry hi] at h
    obtain ⟨pos, hinvalid⟩ := (execEntry_moves (s0 := s) i hwalk (.refl s wk.req.ctx) t h).may_of_irqInvalidTile hs ht
    exact .inr (.inr (.inr ⟨wk, pos, hwalk, hinvalid⟩))
  | read => exact .inl ⟨_, _, _, _, rfl⟩
  | write => exact .inr (.inl ⟨_, _, _, _, _, rfl⟩)
  | response => exact .inr (.inr (.inl ⟨_, _, rfl⟩))
  | register k regs => exact hquiet (setRegs_irqInvalidTile s k regs) ht
  | @miUpdateGtt l =>
    obtain ⟨_, _, _, _, hstores⟩ := foldl_writeGgttEntry_stores .commandStreamer l s
    rw [hstores] at ht
    exact hquiet rfl ht
  | @load c m => exact hquiet (setCtx_irqInvalidTile s c _) ht
  | loadRegisters r => exact hquiet ((setRegs_irqInvalidTile _ _ _).trans (setCtx_irqInvalidTile s _ _)) ht
  | loadValues => exact hquiet (setCtx_irqInvalidTile s _ _) ht
  | reset hreset => cases hreset; cases ht
  | ack => cases ht
  | bypass | mmioRead | ggttUpdate | storeNothing | store | loadNothing => exact hquiet rfl ht

/-- Where the rules serve a request that made the interrupt pending, its tile is Invalid or an entry has no value. -/
theorem invalidTile_of_irqInvalidTile {tr : Translation} (h : served s q (.next t) tr) (hs : s.irqInvalidTile = false)
    (ht : t.irqInvalidTile = true) : tr = .invalidTile ∨ tr = .unsettled := by
  by_contra hne
  obtain ⟨hinvalid, hunsettled⟩ := not_or.1 hne
  exact absurd (ht.symm.trans ((served_irqInvalidTile h hinvalid hunsettled).trans hs)) (by decide)

/-- An unsuccessful response to a request that was walking for its data ends it at once (60_exceptions R277 d). -/
theorem execFaultResponse_data {k : Nat} {h : Halted} (hk : assocGet s.halted k = some h) (hst : h.stage = .data) :
    ∃ wk u, wk.req = h.req ∧ Looks h.req.ctx { s with halted := assocErase s.halted k, walk := none } u ∧
      execFaultResponse k false s = .next (endNonRecoverable wk u) := by
  let s1 : State := { s with halted := assocErase s.halted k, walk := none }
  refine ⟨{ Walk.start h.req (s1.pickRegs h.req.ctx).1 with stage := .data }, _, rfl, .pickRegs s1 h.req.ctx h.req.ctx, ?_⟩
  simp only [execFaultResponse, hk, Bool.false_eq_true, if_false, hst]
  rfl

end Global

/-- Settles O23: GLOBAL's requests go to the GGTT, and a present page faults for none of them. -/
theorem presentGlobalPageCompletesRequests : Obligations.PresentGlobalPageCompletesRequests := by
  intro s e gva entry n v hadm hco halign hfits hentry hpresent pa
  have hrule : ruleGgtt s gva = .phys .system pa true := by
    rw [ruleGgtt_of_admitted halign hfits gva hentry, if_pos hpresent]
  refine ⟨?_, fun hout => ?_, fun k h hk hreq => ?_⟩
  · exact served_read rfl (runRequest_presentGlobalPage
      (q := { id := s.nextReq, agent := e, ctx := .global, gva := gva, n := n, value := none }) rfl hadm hco hrule
      (looks_forRequest s _) (forRequest_ctx s _))
  · exact served_write rfl hout (runRequest_presentGlobalPage
      (q := { id := s.nextReq, agent := e, ctx := .global, gva := gva, n := n, value := some v }) rfl hadm hco hrule
      (looks_forRequest s _) (forRequest_ctx s _))
  · have hexec : exec (.faultResponse k true) s = runRequest h.req { s with halted := assocErase s.halted k, walk := none } :=
      execFaultResponse_ok hk
    rw [hexec, hreq]
    obtain ⟨t, hnext, hwalk, hresult, hmem, hregs, ⟨hhalted, hreset, hirq⟩, hcounter⟩ := served_read rfl (runRequest_presentGlobalPage
      (s := { s with halted := assocErase s.halted k }) (t := { s with halted := assocErase s.halted k, walk := none })
      (q := { id := k, agent := e, ctx := .global, gva := gva, n := n, value := none }) rfl hadm hco hrule
      (.setWalk ..) rfl)
    exact ⟨t, hnext, hwalk, hresult, hhalted, hmem, hregs, hreset, hirq, hcounter⟩

/-- Settles O28: an entry by the walker's moves, a request and a successful response by the rules, an unsuccessful one by its end. -/
theorem onlyInvalidTilesInterrupt : Obligations.OnlyInvalidTilesInterrupt := by
  refine ⟨fun i s t h hs ht => exec_raises_irqInvalidTile h hs ht, fun i s t e c gva n v hadm hco hr hmem hi h hs ht => ?_,
    ?_, fun s t k h hk hst hexec => ?_⟩
  · obtain rfl | rfl := hi
    · exact invalidTile_of_irqInvalidTile (h ▸ readFollowsTheRules s e c gva n hadm hco hr hmem) hs ht
    · exact invalidTile_of_irqInvalidTile (h ▸ writeFollowsTheRules s e c gva n v hadm hco hr hmem) hs ht
  · intro s t k h hk s1 hadm hco hr hmem hexec hs ht
    exact invalidTile_of_irqInvalidTile (s := s1) (hexec ▸ faultResponseReexecutesTheRequest s k h hk hadm hco hr hmem) hs ht
  · obtain ⟨wk, u, -, hl, hnext⟩ := execFaultResponse_data hk hst
    obtain ⟨-, -, hirq⟩ := hl.pending
    obtain rfl : endNonRecoverable wk u = t := Host.Outcome.next.inj (hnext.symm.trans hexec)
    exact hirq

end Sys2Proof.Machine

/-! # After a non-recoverable fault

A spurious cycle stops for nothing: what a rule would refuse ends it, and so does what would complete or fault (60_exceptions R277; log 23).
So an unsuccessful fault response always ends its request. -/

namespace Sys2Proof.Machine

section Spurious

variable {s t : State} {q : Request} {wk : Walk} {i : Instr} {o : Out}

/-! ## The record without a key -/

theorem assocGet_of_above {α : Type} {l : List (Nat × α)} {lo a : Nat} (h : assocAbove lo l = true) (ha : a ≤ lo) :
    assocGet l a = none := by
  induction l generalizing lo with
  | nil => rfl
  | cons p l ih =>
    obtain ⟨k, v⟩ := p
    simp only [assocAbove, Bool.and_eq_true, decide_eq_true_eq] at h
    obtain ⟨hlo, hl⟩ := h
    rw [assocGet, if_neg (by omega)]
    exact ih hl (by omega)

theorem assocGet_erase_above {α : Type} {l : List (Nat × α)} {lo : Nat} (a : Nat) (h : assocAbove lo l = true) :
    assocGet (assocErase l a) a = none := by
  induction l generalizing lo with
  | nil => rfl
  | cons p l ih =>
    obtain ⟨k, v⟩ := p
    simp only [assocAbove, Bool.and_eq_true, decide_eq_true_eq] at h
    rw [assocErase]
    split
    · next hk => exact assocGet_of_above h.2 (by omega)
    · next hk =>
      rw [assocGet, if_neg hk]
      exact ih h.2

theorem assocGet_erase_same {α : Type} {l : List (Nat × α)} (a : Nat) (h : assocWf l = true) : assocGet (assocErase l a) a = none := by
  cases l with
  | nil => rfl
  | cons p l =>
    obtain ⟨k, v⟩ := p
    rw [assocErase]
    split
    · next hk => exact assocGet_of_above h (by omega)
    · next hk =>
      rw [assocGet, if_neg hk]
      exact assocGet_erase_above a h

/-! ## A spurious cycle goes on -/

/-- The outcome is a next state: no fault of the machine and no refusal. -/
def GoesOn (o : Out) : Prop := ∃ t, o = .next t

/-- The PML4 pointer of a context names memory that exists (log 21). -/
def Pml4Exists (s : State) (c : CtxId) : Prop := (s.ctx c).pml4.toNat + 4096 ≤ 2 ^ s.cfg.haw.bits

theorem Pml4Exists.of_sameRegisters {c : CtxId} (h : Pml4Exists s c) (hr : sameRegisters s t) : Pml4Exists t c := by
  obtain ⟨hcfg, -, -, hctx⟩ := hr
  obtain ⟨-, hpml4, -⟩ := hctx c
  rw [Pml4Exists, hpml4, hcfg]
  exact h

theorem complete_goesOn (wk : Walk) (r : Result) (s : State) : GoesOn (complete wk r s) := by
  unfold complete
  split <;> exact ⟨_, rfl⟩

theorem raiseFault_goesOn (wk : Walk) (x : Cause) (s : State) : GoesOn (raiseFault wk x s) := by
  unfold raiseFault
  split <;> exact ⟨_, rfl⟩

theorem refuseWalk_goesOn (hs : wk.spurious = true) (why : Refusal) (s : State) : GoesOn (refuseWalk wk why s) :=
  ⟨_, refuseWalk_of_spurious hs why s⟩

theorem accessNullPage_goesOn (wk : Walk) (w : Bool) (s : State) : GoesOn (accessNullPage wk w s) := by
  unfold accessNullPage
  split
  · exact raiseFault_goesOn ..
  · exact complete_goesOn ..

theorem accessPhys_goesOn (hs : wk.spurious = true) (sp : Space) (pa : Word64) (w : Bool) (s : State) :
    GoesOn (accessPhys wk sp pa w s) := by
  unfold accessPhys
  split
  · exact complete_goesOn ..
  · split
    · exact raiseFault_goesOn ..
    · split
      · exact refuseWalk_goesOn hs ..
      · exact complete_goesOn ..

theorem ggttDone_goesOn (hs : wk.spurious = true) (out : Mapping) (s : State) : GoesOn (ggttDone wk out s) := by
  cases out with
  | page sp base mt w => exact accessPhys_goesOn hs ..
  | null w => exact accessNullPage_goesOn ..

theorem ppgttDone_goesOn (hs : wk.spurious = true) (z : PageSize) (out : Mapping) (nested : Bool) (deps : List Dep) (s : State) :
    GoesOn (ppgttDone wk z out nested deps s) := by
  unfold ppgttDone
  split
  · split
    · exact refuseWalk_goesOn hs ..
    · split
      · exact accessPhys_goesOn hs ..
      · exact ⟨_, rfl⟩
  · split
    · exact accessNullPage_goesOn ..
    · exact refuseWalk_goesOn hs ..

/-- The one fault of the machine in a walk is a PML4 pointer to memory that does not exist. -/
theorem beginPpgtt_goesOn (hs : wk.spurious = true) (hmem : Pml4Exists s wk.req.ctx) : GoesOn (beginPpgtt wk s) := by
  have hexists : inMemory s.cfg (s.ctx wk.req.ctx).pml4.toNat 4096 = true := decide_eq_true hmem
  simp only [beginPpgtt, hexists]
  split
  · exact ppgttDone_goesOn hs ..
  · split
    · exact refuseWalk_goesOn hs ..
    · simp only [Bool.not_true, Bool.false_eq_true, if_false]
      split
      · exact refuseWalk_goesOn hs ..
      · exact ⟨_, rfl⟩

theorem tableRead_goesOn (hs : wk.spurious = true) (hmem : Pml4Exists s wk.req.ctx) (l : TrLevel) (a : Word64) :
    GoesOn (tableRead wk l a s) := by
  unfold tableRead
  split
  · exact refuseWalk_goesOn hs ..
  · exact refuseWalk_goesOn hs ..
  · exact beginPpgtt_goesOn hs hmem

theorem tileFound_goesOn (hs : wk.spurious = true) (hmem : Pml4Exists s wk.req.ctx) (o : TileOut) : GoesOn (tileFound wk o s) := by
  cases o with
  | mapped e => exact beginPpgtt_goesOn hs (hmem.of_sameRegisters (TouchesOnlyCaches.fillTrTlb ..).sameRegisters)
  | null => exact complete_goesOn ..
  | invalid => exact complete_goesOn ..

theorem trDescend_goesOn (hs : wk.spurious = true) (hmem : Pml4Exists s wk.req.ctx) (b : Bool) (l : TrLevel) (a : Word64) :
    GoesOn (trDescend wk b l a s) := by
  unfold trDescend
  split
  · exact refuseWalk_goesOn hs ..
  · exact tableRead_goesOn (wk := wk.trNoted) hs hmem l a

theorem descend_goesOn (hs : wk.spurious = true) (next : Pos) (base : Word64) (k : BitVec 9) (x : Bool) (s : State) :
    GoesOn (descend wk next base k x s) := by
  unfold descend
  split
  · exact refuseWalk_goesOn hs ..
  · exact ⟨_, rfl⟩

theorem leaf_goesOn (hs : wk.spurious = true) (z : PageSize) (base : Word64) (sp : Space) (mt : BitVec 3) (f : LeafBits) (s : State) :
    GoesOn (leaf wk z base sp mt f s) := by
  rw [leaf_eq]
  exact ppgttDone_goesOn ((noted_spurious wk).trans hs) ..

/-- An entry that the walk reads at its place goes on in a spurious cycle. -/
theorem execEntry_goesOn (hwalk : s.walk = some wk) (hpos : wk.pos ∈ positions i) (hs : wk.spurious = true)
    (hmem : Pml4Exists s wk.req.ctx) : GoesOn (execEntry i s) := by
  have hat {pos : Pos} (h : wk.pos ∈ [pos]) : s.walkAt pos = some wk := walkAt_eq.2 ⟨hwalk, List.mem_singleton.1 h⟩
  cases i with
  | ggttPte a fn =>
    simp only [execEntry, execGgttPte, hat hpos]
    exact ggttDone_goesOn ((noted_spurious wk).trans hs) ..
  | pml4e a rw => simp only [execEntry, execPml4e, hat hpos]; exact descend_goesOn hs ..
  | pdpePd a rw => simp only [execEntry, execPdpePd, hat hpos]; exact descend_goesOn hs ..
  | pdpe1gb a lm f => simp only [execEntry, execPdpe1gb, hat hpos]; exact leaf_goesOn hs ..
  | pdePt a x rw =>
    simp only [execEntry, execPdePt, hat hpos]
    split <;> exact descend_goesOn hs ..
  | pde2mb a lm f => simp only [execEntry, execPde2mb, hat hpos]; exact leaf_goesOn hs ..
  | pte64kb a lm f => simp only [execEntry, execPte64kb, hat hpos]; exact leaf_goesOn hs ..
  | pte4kb a f => simp only [execEntry, execPte4kb, hat hpos]; exact leaf_goesOn hs ..
  | notPresent =>
    obtain ⟨l, hl⟩ : ∃ l, levelOf wk.pos = some l := by
      simp only [positions, List.mem_cons, List.not_mem_nil, or_false] at hpos
      obtain h | h | h | h | h | h := hpos <;> exact ⟨_, by rw [h]; rfl⟩
    simp only [execEntry, execNotPresent, hwalk, hl]
    exact raiseFault_goesOn ..
  | trttL3Pointer a => simp only [execEntry, execTrttL3Pointer, hat hpos]; exact trDescend_goesOn hs hmem ..
  | trttL3Null => simp only [execEntry, execTrttL3Null, hat hpos]; exact tileFound_goesOn hs hmem _
  | trttL3Invalid => simp only [execEntry, execTrttL3Invalid, hat hpos]; exact tileFound_goesOn hs hmem _
  | trttL3NullAndInvalid => simp only [execEntry, execTrttL3NullAndInvalid, hat hpos]; exact refuseWalk_goesOn hs ..
  | trttL2Pointer a => simp only [execEntry, execTrttL2Pointer, hat hpos]; exact trDescend_goesOn hs hmem ..
  | trttL2Null => simp only [execEntry, execTrttL2Null, hat hpos]; exact tileFound_goesOn hs hmem _
  | trttL2Invalid => simp only [execEntry, execTrttL2Invalid, hat hpos]; exact tileFound_goesOn hs hmem _
  | trttL2NullAndInvalid => simp only [execEntry, execTrttL2NullAndInvalid, hat hpos]; exact refuseWalk_goesOn hs ..
  | trttL1 a =>
    simp only [execEntry, execTrttL1, hat hpos]
    split
    · split
      · exact refuseWalk_goesOn hs ..
      · exact tileFound_goesOn hs hmem _
    all_goals exact tileFound_goesOn hs hmem _
  | _ => exact absurd hpos List.not_mem_nil

/-- What the decoder gives at a position is read there (30_encoding R128). -/
theorem mem_positions_decodeEntry (p : Params) (pos : Pos) (w : Word64) : pos ∈ positions (decodeEntry p pos w) := by
  have hor : ∀ {P : Prop} [Decidable P] {i j : Instr}, pos ∈ positions i → pos ∈ positions j → pos ∈ positions (if P then i else j) := by
    intro P _ i j hi hj
    split
    · exact hi
    · exact hj
  cases pos with
  | trL3 => unfold decodeEntry decodeTrL3; dsimp only; split <;> simp [positions]
  | trL2 => unfold decodeEntry decodeTrL2; dsimp only; split <;> simp [positions]
  | trL1 => simp [decodeEntry, positions]
  | pdp => exact hor (hor (by simp [positions]) (by simp [positions])) (by simp [positions])
  | pd => exact hor (hor (by simp [positions]) (by simp [positions])) (by simp [positions])
  | _ => exact hor (by simp [positions]) (by simp [positions])

theorem walkStep_goesOn (hwalk : s.walk = some wk) (hs : wk.spurious = true) (hmem : Pml4Exists s wk.req.ctx) :
    GoesOn (walkStep wk s) :=
  execEntry_goesOn (by rw [fetch_walk, hwalk]) (mem_positions_decodeEntry ..) hs
    (hmem.of_sameRegisters (Looks.fetch wk s wk.req.ctx).sameRegisters)

/-! ## To its end -/

/-- The request's cycle is spurious, or it has ended with NonRecoverable; nothing is halted that was not. -/
def SpuriousSoFar (q : Request) (s t : State) : Prop :=
  t.halted = s.halted ∧ Pml4Exists t q.ctx ∧
    ((∃ wk, t.walk = some wk ∧ wk.req = q ∧ wk.spurious = true) ∨
      t.walk = none ∧ ∃ d, t.result = .nonRecoverable q.id d ∧ d.isSome = q.value.isNone)

theorem endNonRecoverable_result (wk : Walk) (s : State) :
    ∃ d, (endNonRecoverable wk s).result = .nonRecoverable wk.req.id d ∧ d.isSome = wk.req.value.isNone := by
  refine ⟨_, rfl, ?_⟩
  cases wk.req.value <;> rfl

theorem endSpurious_halted (wk : Walk) (s : State) : (endSpurious wk s).halted = s.halted := by
  unfold endSpurious
  split <;> rfl

theorem nonRecoverable_spuriousSoFar (hq : wk.req = q) (hh : t.halted = s.halted) (hmem : Pml4Exists (nonRecoverable wk t) q.ctx) :
    SpuriousSoFar q s (nonRecoverable wk t) := by
  subst hq
  cases hst : wk.stage with
  | data =>
    rw [nonRecoverable_of_data hst] at hmem ⊢
    exact ⟨hh, hmem, .inr ⟨rfl, endNonRecoverable_result wk t⟩⟩
  | table l =>
    rw [Machine.nonRecoverable, hst] at hmem ⊢
    exact ⟨hh, hmem, .inl ⟨_, rfl, rfl, rfl⟩⟩

theorem Moves.spuriousSoFar {u : State} {st : Stage} {may : Prop} (h : Moves q true st may t u) (hh : t.halted = s.halted)
    (hmem : Pml4Exists u q.ctx) : SpuriousSoFar q s u := by
  have hhalted {t' : State} (hl : Looks q.ctx t t') : t'.halted = s.halted := by
    obtain ⟨h', -, -⟩ := hl.pending
    exact h'.trans hh
  cases h with
  | goOn wk' h hq hb =>
    have hsame := hhalted h
    exact ⟨hsame, hmem, .inl ⟨wk', rfl, hq, hb⟩⟩
  | spuriousEnd wk' v irq h hq =>
    have hsame := hhalted h
    subst hq
    exact ⟨(endSpurious_halted ..).trans hsame, hmem, .inr ⟨rfl, endNonRecoverable_result wk' _⟩⟩
  | spuriousStore wk' sp pa v h hq =>
    have hsame := hhalted h
    subst hq
    exact ⟨(endSpurious_halted ..).trans hsame, hmem, .inr ⟨rfl, endNonRecoverable_result wk' _⟩⟩
  | completed _ _ _ _ hb | stored _ _ _ _ hb | halted _ _ hb => exact absurd hb (by decide)
  | nonRecoverable wk' h hq => exact nonRecoverable_spuriousSoFar hq (hhalted h) hmem

theorem runWalk_spurious (k : Nat) (h : SpuriousSoFar q s t) : ∃ u, runWalk k t = .next u ∧ SpuriousSoFar q s u := by
  induction k generalizing t with
  | zero => exact ⟨t, rfl, h⟩
  | succ k ih =>
    obtain ⟨hh, hmem, ⟨wk, hwalk, rfl, hs⟩ | ⟨hwalk, hend⟩⟩ := id h
    · obtain ⟨t', ht'⟩ := walkStep_goesOn hwalk hs hmem
      obtain ⟨_, i, -, hmoves⟩ := walkStep_moves hwalk
      have hmem' := hmem.of_sameRegisters (walkStep_changes hwalk rfl .refl t' ht').sameRegisters
      have hstep : SpuriousSoFar wk.req s t' := (hs ▸ hmoves t' ht').spuriousSoFar hh hmem'
      rw [runWalk_succ hwalk, ht']
      exact ih hstep
    · exact ⟨t, runWalk_of_ended hwalk _, h⟩

/-- An unsuccessful response runs the request's spurious cycle to its end (60_exceptions R277; log 23). -/
theorem execFaultResponse_failed {k : Nat} {h : Halted} (hk : assocGet s.halted k = some h) (hmem : Pml4Exists s h.req.ctx) :
    ∃ t, execFaultResponse k false s = .next t ∧ t.halted = assocErase s.halted k ∧ t.needsReset = true ∧ sameRegisters s t ∧
      ∃ d, t.result = .nonRecoverable h.req.id d ∧ d.isSome = h.req.value.isNone := by
  let s1 : State := { s with halted := assocErase s.halted k, walk := none }
  let wk : Walk := { Walk.start h.req (s1.pickRegs h.req.ctx).1 with stage := h.stage }
  let u : State := nonRecoverable wk (s1.pickRegs h.req.ctx).2
  have hexec : execFaultResponse k false s = runOut walkBound (.next u) := by
    simp only [execFaultResponse, hk, Bool.false_eq_true, if_false]
    rfl
  have hstart : sameRegisters s s1 := sameRegisters_of_ctx rfl rfl rfl fun _ => ctx_congr rfl rfl _
  have hfirst : Changes h.req s1 u := nonRecoverable_changes rfl (pickRegs_changes _ .refl)
  have hpending : (s1.pickRegs h.req.ctx).2.halted = assocErase s.halted k := by
    obtain ⟨hhalted, -, -⟩ := (Looks.pickRegs s1 h.req.ctx h.req.ctx).pending
    exact hhalted
  have hspurious : SpuriousSoFar h.req s1 u := nonRecoverable_spuriousSoFar rfl hpending
    ((hmem.of_sameRegisters hstart).of_sameRegisters hfirst.sameRegisters)
  obtain ⟨t, ht, hhalted, -, hend⟩ := runWalk_spurious walkBound hspurious
  have hreset : u.needsReset = true := by
    show (nonRecoverable wk _).needsReset = true
    unfold Machine.nonRecoverable
    split <;> rfl
  have hnext : execFaultResponse k false s = .next t := hexec.trans ht
  have hwalk : t.walk = none := (execFaultResponse_concludes hnext).1
  have hreq : ∀ wk', u.walk = some wk' → wk'.req = h.req := hfirst.walk_req (by rintro _ ⟨⟩)
  have hrest : Changes h.req u t := runWalk_changes walkBound .refl hreq t ht
  refine ⟨t, hnext, hhalted, hrest.needsReset hreset,
    sameRegisters_trans hstart (sameRegisters_trans hfirst.sameRegisters hrest.sameRegisters), ?_⟩
  obtain ⟨wk', hwk', -⟩ | ⟨-, hresult⟩ := hend
  · rw [hwalk] at hwk'
    cases hwk'
  · exact hresult

end Spurious

/-- Settles O56: a spurious cycle stops for nothing and reads a bounded number of entries. -/
theorem unsuccessfulResponseEndsTheRequest : Obligations.UnsuccessfulResponseEndsTheRequest := by
  intro s k h hwf hk hmem
  obtain ⟨t, hnext, hhalted, hreset, hregs, hresult⟩ := execFaultResponse_failed hk hmem
  refine ⟨t, hnext, hreset, (execFaultResponse_concludes hnext).1, ?_, fun j hj => ?_, hregs, hresult, fun hst => ?_⟩
  · rw [hhalted]
    exact assocGet_erase_same k hwf
  · rw [hhalted]
    exact assocGet_erase_other _ (Ne.symm hj)
  · obtain ⟨wk, u, -, hl, hend⟩ := execFaultResponse_data hk hst
    obtain rfl : endNonRecoverable wk u = t := Host.Outcome.next.inj (hend.symm.trans hnext)
    obtain ⟨-, -, hirq⟩ := hl.pending
    exact ⟨hl.sameMemory, hirq, hl.nullcnt⟩

end Sys2Proof.Machine
